-- ==== Sys2Proof/Word.lean ====
section
/-! DEFINITION. The widths of the block's data: words, bytes, chaining values and message blocks
(00_scope.md rules R7 and R8). -/

namespace Sys2Proof

/-- A 32-bit word, unsigned; `+` wraps modulo 2^32 (R8, R9). -/
abbrev Word := BitVec 32

/-- A byte. -/
abbrev Byte := BitVec 8

/-- A chaining value: 8 words (R7). -/
abbrev Cv := Vector Word 8

/-- A message block: 16 words, 64 bytes (R7). -/
abbrev Block := Vector Word 16

end Sys2Proof
end

