-- ==== Sys2Proof/Machine/State.lean ====
section
/-! DEFINITION. Everything the spec gives the block (10_state.md rule R36), the host agent's own state
(00_scope.md rule R6), and the state after hardware reset (70_reset_and_hazards.md rule R230). -/

namespace Sys2Proof.Machine

/-- STATE, the lifecycle of the hasher (R21). -/
inductive Lifecycle where
  | empty
  | accepting
  | finalized
deriving DecidableEq, Repr

/-- The codes of STATUS.ERR (R200). Codes 7 to 15 are reserved and have no constructor. -/
inductive ErrCode where
  | ok
  | protocolMisuse
  /-- Code 2, reserved: never written (R208). -/
  | invariantViolation
  | inputError
  | illegalCommand
  | counterOverflow
  | stackOverflow
deriving DecidableEq, Repr

/-- A node of the hash tree (R23). The level field is 7 bits wide. -/
structure Node where
  cv : Cv
  level : BitVec 7
deriving DecidableEq, Repr

/-- The four model faults of R207, each a host action or a condition for which the block has no defined
result. No step ends in one: the fault is RECORDED in `faulted` and the host's program is stopped, which is
the effect R207 and R52 give it. -/
inductive Fault where
  /-- Recorded for a host access that R52 refuses (`regRead`, `regWrite`). Safe: nothing else changes. -/
  | busError
  /-- Recorded for a host read of an unwritten operand cell (`State.noteRead`; R31). Safe: the value read
  is free. -/
  | unwrittenRead
  /-- Recorded when COMPRESS, PUSH_CHUNK or FINALIZE consumes an unwritten cell (`State.noteOperands`; R211).
  Safe: the values consumed are free. -/
  | unwrittenOperand
  /-- Recorded by the command engine when it finds an invariant of R24 broken (R208). Safe: no run reaches
  such a state. -/
  | invariantViolation
deriving DecidableEq, Repr

/-- Reasons to refuse an instruction. -/
inductive Refusal where
  /-- Answered only by an arm of `exec` whose instruction has no meaning yet; no arm does. Safe. -/
  | notModelled (mnemonic : String)
deriving DecidableEq, Repr

/-- One host operation (R76). LOOP and CMD are expansions into these (Machine/HostProgram.lean).
Offsets are byte offsets from BASE; `width` is the width of the access in bits, of which only 32 is
legal (R51, R52). -/
inductive HostOp where
  /-- `WR off, v`: one register write. -/
  | wr (off width : Nat) (v : Word)
  /-- `RD h, off`: one register read into host variable number `h`. -/
  | rd (h off width : Nat)
  /-- `WAIT`: read STATUS until BUSY = 0 (R77). -/
  | wait
  /-- `CHK_OK`: read STATUS and assert ERR = 0 (R77). -/
  | chkOk
  /-- Apply hardware reset and let it end (R233 step 1). It is no register access. -/
  | hwReset
deriving DecidableEq, Repr

/-- The whole state: first the block (R36), then the block's reset input, then the host agent, then the
two counters that carry the free command latency. -/
structure State where
  /-- STATE (R21). -/
  lifecycle : Lifecycle
  /-- The number of interior chunks accepted (R22). -/
  processedChunks : BitVec 64
  /-- The pending stack (R23), TOP FIRST: the head is the last-pushed entry (log entry 10). -/
  stack : List Node
  /-- DIGEST[0..8) (R25). -/
  digest : Cv
  /-- OUT[0..16) (R26). -/
  out : Block
  /-- BUSY (R27). -/
  busy : Bool
  /-- INFLIGHT, meaningful only while BUSY = 1 (R27). -/
  inflight : Word
  /-- ERR, the result of the last completed command (R27, R204). -/
  err : ErrCode
  /-- CV_IN[0..8); `none` is the spec's "unwritten" (R28, R31). -/
  cvIn : Vector (Option Word) 8
  /-- COUNTER_LO (R28). -/
  counterLo : Option Word
  /-- COUNTER_HI (R28). -/
  counterHi : Option Word
  /-- BLOCK_LEN (R28). -/
  blockLen : Option Word
  /-- FLAGS (R28). -/
  flags : Option Word
  /-- MSG[0..16) (R28). -/
  msg : Vector (Option Word) 16
  /-- CHUNK_BUF[0..256) (R29). -/
  chunkBuf : Vector (Option Word) 256
  /-- `faulted` (R207): the first model fault that has been recorded, if any. Never cleared by a step. -/
  faulted : Option Fault
  /-- The block's reset input (R230), asserted and not yet acted on. -/
  resetInput : Bool
  /-- What the host has still to do, in program order (R57, R76). -/
  hostProgram : List HostOp
  /-- The host variables that hold a value, by rising number (R76). Number 0 is `h_s`. -/
  hostVars : List (Nat × Word)
  /-- A CHK_OK assert has failed: the program ended as a failed program (R77). -/
  hostFailed : Bool
  /-- Commands issued so far; it tells one issue from the next for the free value `Config.cmdLatency`
  (log entry 2). -/
  issued : Nat
  /-- Host turns left before the command in flight completes (log entry 2). -/
  latencyLeft : Nat
deriving DecidableEq, Repr

/-- The state right after hardware reset (R230), with nothing for the host to do. `inflight` is not
meaningful there (log entry 4). R230 leaves `faulted` unchanged and no rule gives it a first value:
starting with no fault recorded is the model's choice (DESIGN CHOICE, log entry 26). The fields after
`faulted` are the model's own. -/
def State.reset : State where
  lifecycle := .empty
  processedChunks := 0
  stack := []
  digest := Vector.replicate 8 0
  out := Vector.replicate 16 0
  busy := false
  inflight := 0
  err := .ok
  cvIn := Vector.replicate 8 none
  counterLo := none
  counterHi := none
  blockLen := none
  flags := none
  msg := Vector.replicate 16 none
  chunkBuf := Vector.replicate 256 none
  faulted := none
  resetInput := false
  hostProgram := []
  hostVars := []
  hostFailed := false
  issued := 0
  latencyLeft := 0

end Sys2Proof.Machine
end

