-- ==== Sys2Proof/Config.lean ====
section
/-! DEFINITION. The block's implementation parameters (00_scope.md rule R7): the fixed ones as
numbers; the two OPEN ones, and the value of an unwritten cell, as constants without a body. -/

namespace Sys2Proof.Config

/-- Bytes of the register window (R50). -/
abbrev windowSize : Nat := 0x800

/-- Bytes of a message block (R7). -/
abbrev blockBytes : Nat := 64

/-- Bytes of a full chunk, and the largest legal LEN of FINALIZE (R7, R72). -/
abbrev chunkBytes : Nat := 1024

/-- Rounds of one compression (R7). -/
abbrev rounds : Nat := 7

/-- Capacity of the pending stack (R7, R23). -/
abbrev stackDepth : Nat := 65

/-- FREE VALUE (log entry 3): which 2048-byte slot of the platform's address space holds the register
window. It stands for the OPEN parameter `BASE`. -/
opaque windowIndex : Nat

/-- `BASE`, the byte address of the register window: a multiple of 0x800 (R50). -/
def base : Nat := windowIndex * windowSize

/-- FREE VALUE (log entry 2): the OPEN parameter `CMD_LATENCY` of the command word issued in a state,
counted in host turns that pass before the command completes. It may differ with the word, with every
operand, and from one issue to the next, since the state counts the issues; it is finite and otherwise
unconstrained (R236). -/
opaque cmdLatency : Machine.State → Word → Nat

/-- FREE VALUE (log entry 5): what a data-register cell that nothing has written yields when it is read or
consumed, by the state and the cell's offset. R31: "The hardware returns or uses some value. No source or
decision fixes which." -/
opaque unwrittenValue : Machine.State → (off : Nat) → Word

end Sys2Proof.Config
end

