-- ==== Sys2Proof/Syntax.lean ====
section
/-! DEFINITION. The commands of the block (30_encoding.md rule R71), one constructor per row of
spec/opcode_table.json. -/

namespace Sys2Proof

/-- A decoded command word. In this block a command is what other machines call an instruction (R11). -/
inductive Instr where
  /-- RESET (OP 0x1): back to an empty session (R155). -/
  | reset
  /-- COMPRESS (OP 0x2): one raw compression over the operand registers (R110). -/
  | compress
  /-- PUSH_CHUNK (OP 0x3): one interior chunk from CHUNK_BUF (R136). -/
  | pushChunk
  /-- FINALIZE `len` (OP 0x4): the terminal chunk of `len` bytes, then the root (R154). LEN is an
  unscaled 11-bit field; a value above 1024 decodes and then fails at execution (R72). -/
  | finalize (len : BitVec 11)
deriving DecidableEq, Repr

end Sys2Proof
end

