-- ==== Sys2Proof/WellFormed.lean ====
section
/-! DEFINITION. Which commands are legal as written: the 1028 legal command words of 30_encoding.md
rule R75. The one check is FINALIZE's LEN range (R72). -/

namespace Sys2Proof

/-- The operand of the command is inside the range the spec calls legal. -/
def Instr.wellFormed : Instr → Bool
  | .reset => true
  | .compress => true
  | .pushChunk => true
  | .finalize len => decide (len.toNat ≤ Config.chunkBytes)

/-- `wellFormed` as a proposition. -/
abbrev Instr.WellFormed (i : Instr) : Prop := i.wellFormed = true

end Sys2Proof
end

