-- ==== Sys2Proof/Decode.lean ====
section
/-! DEFINITION. The command word (30_encoding.md rules R70 to R75): its fields, the decoder, which is
total on 32-bit words and rejects by name, and the encoder. -/

namespace Sys2Proof

/-- Why a word is no command (R73, R74). Every one of them completes with ILLEGAL_COMMAND. -/
inductive DecodeError where
  /-- A bit of RSV0 or RSV1 is set (R73). -/
  | reservedBits
  /-- OP is 0x0 or 0x5 to 0xF (R74). -/
  | reservedOp
  /-- LEN is not 0 on RESET, COMPRESS or PUSH_CHUNK (R73). -/
  | lenNotZero
deriving DecidableEq, Repr

/-- OP, bits 3:0 (R70). -/
def opField (w : Word) : BitVec 4 := w.extractLsb' 0 4

/-- RSV0, bits 7:4 (R70). -/
def rsv0Field (w : Word) : BitVec 4 := w.extractLsb' 4 4

/-- LEN, bits 18:8 (R70, R72). -/
def lenField (w : Word) : BitVec 11 := w.extractLsb' 8 11

/-- RSV1, bits 31:19 (R70). -/
def rsv1Field (w : Word) : BitVec 13 := w.extractLsb' 19 13

/-- A command that takes no LEN: legal only when LEN is 0 (R72, R73). -/
def withoutLen (w : Word) (i : Instr) : Except DecodeError Instr :=
  if lenField w = 0 then .ok i else .error .lenNotZero

/-- The decoder (R75): a total function from 32-bit words. -/
def decode (w : Word) : Except DecodeError Instr :=
  if rsv0Field w ≠ 0 ∨ rsv1Field w ≠ 0 then .error .reservedBits
  else if opField w = 0x1 then withoutLen w .reset
  else if opField w = 0x2 then withoutLen w .compress
  else if opField w = 0x3 then withoutLen w .pushChunk
  else if opField w = 0x4 then .ok (.finalize (lenField w))
  else .error .reservedOp

/-- The word with the given LEN and OP and all reserved bits zero: `OP | (LEN << 8)` (R70, R75). -/
def commandWord (len : BitVec 11) (op : BitVec 4) : Word :=
  op.setWidth 32 ||| len.setWidth 32 <<< 8

/-- The encoder (R70, R71): the one word of each command. -/
def encode : Instr → Word
  | .reset => commandWord 0 0x1
  | .compress => commandWord 0 0x2
  | .pushChunk => commandWord 0 0x3
  | .finalize len => commandWord len 0x4

/-- The command this decoder reads from an instruction of `nbits` bits, numbered as
spec/opcode_table.json numbers them (bit 0 least significant). A command is one 32-bit word written
whole to CMD, so there is no byte layout to undo; bits above `nbits` are 0. -/
def decodeTableWord (nbits w : Nat) : Option Instr :=
  match decode (BitVec.ofNat 32 (w % 2 ^ nbits)) with
  | .ok i => some i
  | .error _ => none

end Sys2Proof
end

