-- ==== Sys2Proof/Machine/Ops.lean ====
section
/-! DEFINITION. The named updates of the state: reporting an error (00_scope.md rule R10), recording a
model fault (60_exceptions.md rule R207), hardware reset (70_reset_and_hazards.md rule R230), issue and
completion of a command (R234), and the host agent's own moves. The block has no trap entry and no
return from one (R205, R206); `raiseErr` and `recordFault` stand where a processor has them. -/

namespace Sys2Proof.Machine

/-! ### Errors, faults and reset -/

/-- `raise Err(code)` (R10): writes ERR and changes nothing else (R202). -/
def State.raiseErr (s : State) (c : ErrCode) : State := { s with err := c }

/-- `ERR <- OK`: what every successful command does last (R200, R204). -/
def State.succeed (s : State) : State := { s with err := .ok }

/-- A model fault is recorded: `faulted` is set, if it is not set already, the host's program is stopped,
and nothing else changes (R52, R207). -/
def State.recordFault (s : State) (f : Fault) : State :=
  { s with faulted := some (s.faulted.getD f), hostProgram := [] }

/-- The reset input is asserted; the block acts on it in its next step. -/
def State.assertReset (s : State) : State := { s with resetInput := true }

/-- Hardware reset (R230), which also abandons a command in flight (R231). A recorded fault stays
(R207), and the host, its variables and its program are not the block's to reset (log entry 11). -/
def State.hardwareReset (s : State) : State :=
  { State.reset with
    faulted := s.faulted
    hostProgram := s.hostProgram
    hostVars := s.hostVars
    hostFailed := s.hostFailed
    issued := s.issued }

/-! ### Issue and completion -/

/-- A write of `w` to CMD is accepted (R234): BUSY is set, INFLIGHT holds the word, nothing else of the
block changes. The command's latency is drawn here (log entry 2). -/
def State.issue (s : State) (w : Word) : State :=
  { s with
    busy := true
    inflight := w
    issued := s.issued + 1
    latencyLeft := Config.cmdLatency s w }

/-- `BUSY <- 0`, the end of the completion step (R234). -/
def State.finishCommand (s : State) : State := { s with busy := false }

/-- One host turn of the command's latency has passed. -/
def State.countDown (s : State) : State := { s with latencyLeft := s.latencyLeft - 1 }

/-! ### Results of the commands -/

/-- COMPRESS's result register OUT (R26). -/
def State.setOut (s : State) (o : Block) : State := { s with out := o }

/-- The pending stack and the chunk counter (R22, R23). -/
def State.setTree (s : State) (stack : List Node) (count : BitVec 64) : State :=
  { s with stack := stack, processedChunks := count }

/-- DIGEST (R25). -/
def State.setDigest (s : State) (d : Cv) : State := { s with digest := d }

/-- STATE (R21). -/
def State.setLifecycle (s : State) (l : Lifecycle) : State := { s with lifecycle := l }

/-! ### The host agent -/

/-- What the host has still to do. -/
def State.setProgram (s : State) (p : List HostOp) : State := { s with hostProgram := p }

/-- A CHK_OK assert failed: the host program ends as a failed program (R77). -/
def State.failHost (s : State) : State := { s with hostFailed := true, hostProgram := [] }

/-- `h` gets the value `v` in a list of variables kept by rising number, without repeats. -/
def assign (h : Nat) (v : Word) : List (Nat × Word) → List (Nat × Word)
  | [] => [(h, v)]
  | (k, x) :: rest =>
    if h < k then (h, v) :: (k, x) :: rest
    else if h = k then (h, v) :: rest
    else (k, x) :: assign h v rest

/-- The value variable `h` holds, if it has been given one. -/
def lookup (h : Nat) : List (Nat × Word) → Option Word
  | [] => none
  | (k, x) :: rest => if h = k then some x else lookup h rest

/-- The numbers of the variables rise strictly: the one form a set of variables has. -/
def varsSorted : List (Nat × Word) → Bool
  | [] => true
  | [_] => true
  | (k, _) :: (k', x') :: rest => decide (k < k') && varsSorted ((k', x') :: rest)

/-- `hN <- v` (R76). -/
def State.setVar (s : State) (h : Nat) (v : Word) : State :=
  { s with hostVars := assign h v s.hostVars }

/-- The variable `h_s` that WAIT and CHK_OK read STATUS into (R77). -/
def statusVar : Nat := 0

end Sys2Proof.Machine
end

