-- ==== Sys2Proof/Machine/Flags.lean ====
section
/-! DEFINITION. The bits the block computes: the domain-separation flags of a compression
(40_compression.md rule R101, 41_chunk_processor.md rule R131, 42_tree_merger.md rule R150) and the
status words (10_state.md rules R32 and R33). The block has no condition codes (R37). -/

namespace Sys2Proof.Machine

/-! ### Domain-separation flags -/

/-- CHUNK_START, bit 0 (R101). -/
def flagChunkStart : Word := 0x01
/-- CHUNK_END, bit 1 (R101). -/
def flagChunkEnd : Word := 0x02
/-- PARENT, bit 2 (R101). -/
def flagParent : Word := 0x04
/-- ROOT, bit 3 (R101). -/
def flagRoot : Word := 0x08
/-- KEYED_HASH, bit 4 (R101); never set by this block. -/
def flagKeyedHash : Word := 0x10
/-- DERIVE_KEY_CONTEXT, bit 5 (R101); never set by this block. -/
def flagDeriveKeyContext : Word := 0x20
/-- DERIVE_KEY_MATERIAL, bit 6 (R101); never set by this block. -/
def flagDeriveKeyMaterial : Word := 0x40

/-- `flag` when the condition holds, else no bit. -/
def flagIf (c : Bool) (flag : Word) : Word := if c then flag else 0

/-- The flags of block `j` of a chunk of `n` blocks (R131). -/
def blockFlags (j n : Nat) (root : Bool) : Word :=
  flagIf (j == 0) flagChunkStart ||| flagIf (j == n - 1) flagChunkEnd
    ||| flagIf (j == n - 1 && root) flagRoot

/-- The flags of a parent compression: PARENT, and ROOT for the single root merge (R150, R153). -/
def parentFlags (root : Bool) : Word := flagParent ||| flagIf root flagRoot

/-- COMPRESS takes any combination of the seven flags and no other bit (R28, R110). -/
def flagsLegal (f : Word) : Bool := f.extractLsb' 7 25 == 0

/-! ### Status words -/

/-- The number of each value of STATE (R21). -/
def lifecycleBits : Lifecycle → BitVec 2
  | .empty => 0
  | .accepting => 1
  | .finalized => 2

/-- The code of each error (R200). -/
def errBits : ErrCode → BitVec 4
  | .ok => 0
  | .protocolMisuse => 1
  | .invariantViolation => 2
  | .inputError => 3
  | .illegalCommand => 4
  | .counterOverflow => 5
  | .stackOverflow => 6

/-- STATUS (R32, R52): `busy | state << 1 | err << 4`; the other bits read 0. -/
def statusWord (s : State) : Word :=
  (BitVec.ofBool s.busy).setWidth 32 ||| (lifecycleBits s.lifecycle).setWidth 32 <<< 1
    ||| (errBits s.err).setWidth 32 <<< 4

/-- STACK_INFO.TOP_LEVEL: the level of the top entry, 0 when the stack is empty (R33). -/
def topLevel (s : State) : BitVec 7 :=
  match s.stack with
  | [] => 0
  | top :: _ => top.level

/-- STACK_INFO (R33, R52): `SIZE | TOP_LEVEL << 8`; the other bits read 0. -/
def stackInfoWord (s : State) : Word :=
  (BitVec.ofNat 7 s.stack.length).setWidth 32 ||| (topLevel s).setWidth 32 <<< 8

end Sys2Proof.Machine
end

