-- ==== Sys2Proof/Machine/Operands.lean ====
section
/-! DEFINITION. The operands of the commands: the byte order between words and bytes (20_memory.md rules
R53 to R56) and the data-register cells each command consumes (60_exceptions.md rule R211). -/

namespace Sys2Proof.Machine

/-! ### Byte order -/

/-- `b0 | b1 << 8 | b2 << 16 | b3 << 24`: the word of four bytes, least significant first (R53). -/
def wordOfBytes (b0 b1 b2 b3 : Byte) : Word :=
  b0.setWidth 32 ||| b1.setWidth 32 <<< 8 ||| b2.setWidth 32 <<< 16 ||| b3.setWidth 32 <<< 24

/-- Byte `j` of a word, counted from the least significant (R54). -/
def byteOfWord (w : Word) (j : Nat) : Byte := w.extractLsb' (8 * j) 8

/-- `words_le` (R53), four bytes a word; the bytes come in whole words. -/
def wordsLe : List Byte → List Word
  | b0 :: b1 :: b2 :: b3 :: rest => wordOfBytes b0 b1 b2 b3 :: wordsLe rest
  | _ => []

/-- `bytes_le` (R54), the inverse of `words_le`. -/
def bytesLe (ws : List Word) : List Byte :=
  ws.flatMap fun w => [byteOfWord w 0, byteOfWord w 1, byteOfWord w 2, byteOfWord w 3]

/-- The 32 bytes of the digest (R56): `bytes_le(DIGEST[0..8))`. -/
def digestBytes (s : State) : List Byte := bytesLe s.digest.toList

/-! ### Cells -/

/-- No cell of the list is unwritten (R31). -/
def cellsWritten (cells : List (Option Word)) : Bool := cells.all Option.isSome

/-- What the cell at an offset yields: what was written to it, or a free value (R31, log entry 5). -/
def operandValue (s : State) (off : Nat) (c : Option Word) : Word := c.getD (Config.unwrittenValue s off)

/-- The operands of a command are looked at: an unwritten one is the fault UnwrittenOperand (R211). -/
def State.noteOperands (s : State) (cells : List (Option Word)) : State :=
  if cellsWritten cells then s else s.recordFault .unwrittenOperand

/-- The 28 cells COMPRESS consumes (R110, R211). -/
def compressCells (s : State) : List (Option Word) :=
  s.cvIn.toList ++ [s.counterLo, s.counterHi, s.blockLen, s.flags] ++ s.msg.toList

/-- How many words hold `L` bytes: `ceil(L/4)` (R29). -/
def wordsFor (L : Nat) : Nat := (L + 3) / 4

/-- The cells of CHUNK_BUF that a chunk of `L` bytes consumes (R29, R211). -/
def chunkCells (s : State) (L : Nat) : List (Option Word) := s.chunkBuf.toList.take (wordsFor L)

/-- CV_IN, MSG, BLOCK_LEN and FLAGS as COMPRESS consumes them (R28). -/
def cvInValue (s : State) : Cv := Vector.ofFn fun i => operandValue s (0x040 + 4 * i.val) s.cvIn[i]
@[inherit_doc cvInValue]
def msgValue (s : State) : Block := Vector.ofFn fun i => operandValue s (0x080 + 4 * i.val) s.msg[i]
@[inherit_doc cvInValue]
def blockLenValue (s : State) : Word := operandValue s 0x068 s.blockLen
@[inherit_doc cvInValue]
def flagsValue (s : State) : Word := operandValue s 0x06C s.flags

/-- `COUNTER_HI · 2^32 + COUNTER_LO` (R28). -/
def compressCounter (s : State) : BitVec 64 :=
  BitVec.ofNat 64 ((operandValue s 0x064 s.counterHi).toNat * 2 ^ 32
    + (operandValue s 0x060 s.counterLo).toNat)

/-- The words of CHUNK_BUF as a command consumes them (R29). -/
def chunkWords (s : State) : List Word :=
  (List.finRange 256).map fun k => operandValue s (0x400 + 4 * k.val) s.chunkBuf[k]

/-- The chunk of `L` bytes in CHUNK_BUF: `bytes_le(CHUNK_BUF[0..256))[0..L)` (R136, R154). -/
def chunkBytes (s : State) (L : Nat) : List Byte :=
  (bytesLe (chunkWords s)).take L

end Sys2Proof.Machine
end

