-- ==== Sys2Proof/Machine/Compression.lean ====
section
/-! DEFINITION. The compression function (40_compression.md rules R100 to R109) and the meaning of the
COMPRESS command (R110). -/

namespace Sys2Proof.Machine

/-! ### The function -/

/-- The initial value (R100). -/
def iv : Cv :=
  #v[0x6A09E667, 0xBB67AE85, 0x3C6EF372, 0xA54FF53A, 0x510E527F, 0x9B05688C, 0x1F83D9AB, 0x5BE0CD19]

/-- The permutation table PERM (R102). -/
def perm : Vector (Fin 16) 16 := #v[2, 6, 3, 10, 7, 0, 4, 13, 1, 11, 12, 5, 9, 14, 15, 8]

/-- The message schedule of the next round: new word `i` is old word `PERM[i]` (R102). -/
def permute (m : Block) : Block := Vector.ofFn fun i => m[perm[i]]

/-- `ROTR(x, n)` for `0 < n < 32` (R9). -/
def rotr (x : Word) (n : Nat) : Word := x >>> n ||| x <<< (32 - n)

/-- The mixing function G (R103): the new values of `a`, `b`, `c`, `d`. -/
def g (a b c d m0 m1 : Word) : Word × Word × Word × Word :=
  let a := a + b + m0
  let d := rotr (d ^^^ a) 16
  let c := c + d
  let b := rotr (b ^^^ c) 12
  let a := a + b + m1
  let d := rotr (d ^^^ a) 8
  let c := c + d
  let b := rotr (b ^^^ c) 7
  (a, b, c, d)

/-- A row of the table of R104: the four words of `v` and the two words of `m` that a call of G takes. -/
structure MixStep where
  a : Fin 16
  b : Fin 16
  c : Fin 16
  d : Fin 16
  m0 : Fin 16
  m1 : Fin 16
deriving DecidableEq, Repr

/-- The eight calls of G in a round, columns then diagonals (R104). -/
def mixSteps : List MixStep :=
  [⟨0, 4,  8, 12,  0,  1⟩, ⟨1, 5,  9, 13,  2,  3⟩, ⟨2, 6, 10, 14,  4,  5⟩, ⟨3, 7, 11, 15,  6,  7⟩,
   ⟨0, 5, 10, 15,  8,  9⟩, ⟨1, 6, 11, 12, 10, 11⟩, ⟨2, 7,  8, 13, 12, 13⟩, ⟨3, 4,  9, 14, 14, 15⟩]

/-- One call of G, written back to the working vector before the next call (R104). -/
def mix (m : Block) (v : Block) (r : MixStep) : Block :=
  let o := g v[r.a] v[r.b] v[r.c] v[r.d] m[r.m0] m[r.m1]
  (((v.set r.a o.1).set r.b o.2.1).set r.c o.2.2.1).set r.d o.2.2.2

/-- One round (R104). -/
def round (v m : Block) : Block := mixSteps.foldl (mix m) v

/-- `n` rounds, with the schedule permuted between rounds and not after the last (R106). -/
def rounds : Nat → Block → Block → Block
  | 0, v, _ => v
  | 1, v, m => round v m
  | n + 2, v, m => rounds (n + 1) (round v m) (permute m)

/-- The working vector at the start (R105). -/
def initVector (cvIn : Cv) (counter : BitVec 64) (blockLength : BitVec 8) (flags : Word) : Block :=
  #v[cvIn[0], cvIn[1], cvIn[2], cvIn[3], cvIn[4], cvIn[5], cvIn[6], cvIn[7],
     iv[0], iv[1], iv[2], iv[3],
     counter.extractLsb' 0 32, counter.extractLsb' 32 32, blockLength.setWidth 32, flags]

/-- The output words: `v[i] ⊕ v[i+8]`, then `v[i+8] ⊕ cv_in[i]` (R107). -/
def outputWords (v : Block) (cvIn : Cv) : Block :=
  #v[v[0] ^^^ v[8], v[1] ^^^ v[9], v[2] ^^^ v[10], v[3] ^^^ v[11],
     v[4] ^^^ v[12], v[5] ^^^ v[13], v[6] ^^^ v[14], v[7] ^^^ v[15],
     v[8] ^^^ cvIn[0], v[9] ^^^ cvIn[1], v[10] ^^^ cvIn[2], v[11] ^^^ cvIn[3],
     v[12] ^^^ cvIn[4], v[13] ^^^ cvIn[5], v[14] ^^^ cvIn[6], v[15] ^^^ cvIn[7]]

/-- The compression function: total, pure, no checks (R105 to R107, R109). -/
def compressBlock (block : Block) (cvIn : Cv) (counter : BitVec 64) (blockLength : BitVec 8)
    (flags : Word) : Block :=
  outputWords (rounds Config.rounds (initVector cvIn counter blockLength flags) block) cvIn

/-- The first 8 words of a block of output (R108). -/
def firstHalf (o : Block) : Cv := #v[o[0], o[1], o[2], o[3], o[4], o[5], o[6], o[7]]

/-- `compress_cv`: the output truncated to the next chaining value (R108). -/
def compressCv (block : Block) (cvIn : Cv) (counter : BitVec 64) (blockLength : BitVec 8)
    (flags : Word) : Cv :=
  firstHalf (compressBlock block cvIn counter blockLength flags)

/-! ### The command -/

/-- The output of a compression over the operand registers (R110). -/
def compressOutput (s : State) : Block :=
  compressBlock (msgValue s) (cvInValue s) (compressCounter s) ((blockLenValue s).setWidth 8) (flagsValue s)

/-- COMPRESS (R110), its checks in the order of R203. An unwritten operand is recorded as the fault
UnwrittenOperand (R211); being the first condition that holds, it is the only one reported, so the two operand
checks after it are not made, and the command runs on a value that is free (R31, R207; log entry 6). -/
def execCompress (s : State) : Host.Outcome State Fault Refusal :=
  let ran := ((s.noteOperands (compressCells s)).setOut (compressOutput s)).succeed
  .next
    (if cellsWritten (compressCells s) = false then ran
    else if (blockLenValue s).toNat > Config.blockBytes then s.raiseErr .inputError
    else if flagsLegal (flagsValue s) = false then s.raiseErr .inputError
    else ran)

end Sys2Proof.Machine
end

