-- ==== Sys2Proof/Machine/ChunkProcessor.lean ====
section
/-! DEFINITION. The chunk processor: one chunk of 0 to 1024 bytes to one chaining value
(41_chunk_processor.md rules R130 to R135). -/

namespace Sys2Proof.Machine

/-- `nblocks(L) = max(1, ceil(L / 64))` (R130): the empty chunk has one block. -/
def nblocks (L : Nat) : Nat := max 1 ((L + 63) / 64)

/-- `blen(L, j)`: 64 but for the last block (R130). -/
def blen (L j : Nat) : Nat := if j < nblocks L - 1 then 64 else L - 64 * (nblocks L - 1)

/-- Sixteen words from a list; words past its end are zero. -/
def blockOfWords (ws : List Word) : Block := Vector.ofFn fun i => ws.getD i.val 0

/-- `block(C, j)`: the block's bytes, zero-filled to 64, as words (R130, R53). -/
def chunkBlock (C : List Byte) (j : Nat) : Block :=
  let n := blen C.length j
  blockOfWords (wordsLe ((C.drop (64 * j)).take n ++ List.replicate (64 - n) 0))

/-- The chaining value after block `j`, from the one before it (R132, R133). -/
def chunkStep (C : List Byte) (t : BitVec 64) (root : Bool) (cv : Cv) (j : Nat) : Cv :=
  compressCv (chunkBlock C j) cv t (BitVec.ofNat 8 (blen C.length j))
    (blockFlags j (nblocks C.length) root)

/-- `chunk_cv(C, t, root)` (R135): the blocks in order, starting from the IV. -/
def chunkCv (C : List Byte) (t : BitVec 64) (root : Bool) : Cv :=
  (List.range (nblocks C.length)).foldl (chunkStep C t root) iv

end Sys2Proof.Machine
end

