-- ==== Sys2Proof/Machine/TreeMerger.lean ====
section
/-! DEFINITION. The tree merger's operations on the pending stack (42_tree_merger.md rules R150 to R153)
and the invariants of the stack (10_state.md rule R24). Stacks are lists with the top entry first. -/

namespace Sys2Proof.Machine

/-- `left ‖ right`: the 16-word message of a parent (R9, R150). -/
def joinCvs (left right : Cv) : Block :=
  #v[left[0], left[1], left[2], left[3], left[4], left[5], left[6], left[7],
     right[0], right[1], right[2], right[3], right[4], right[5], right[6], right[7]]

/-- `parent_cv` (R150): counter 0, block length 64, `cv_in` the IV. -/
def parentCv (left right : Cv) (flags : Word) : Cv :=
  compressCv (joinCvs left right) iv 0 64 flags

/-- The node two nodes merge into, one level above the left one (R152, R153). -/
def mergeNodes (left right : Node) (flags : Word) : Node :=
  { cv := parentCv left.cv right.cv flags, level := left.level + 1 }

/-- The stack after `top` has been pushed on `rest` and equal levels have been merged (R152): while the
top two entries have the same level, both are popped and their parent, without ROOT, is pushed. -/
def mergeOnto (top : Node) : List Node → List Node
  | [] => [top]
  | left :: below =>
    if left.level = top.level then mergeOnto (mergeNodes left top (parentFlags false)) below
    else top :: left :: below

/-- `merge_ready()` (R152). -/
def mergeReady : List Node → List Node
  | [] => []
  | top :: rest => mergeOnto top rest

/-- The one node left when `right`, on top of the given stack, has been drained (R153): the top two are
merged whatever their levels, with ROOT on the merge whose pops leave the stack empty. -/
def drainOnto (right : Node) : List Node → Node
  | [] => right
  | left :: below => drainOnto (mergeNodes left right (parentFlags below.isEmpty)) below

/-- `push_leaf(cv)` (R151): push at level 0, count the chunk, merge. -/
def State.pushLeaf (s : State) (cv : Cv) : State :=
  s.setTree (mergeReady ({ cv := cv, level := 0 } :: s.stack)) (s.processedChunks + 1)

/-! ### Invariants (R24) -/

/-- The positions of the 1 bits of the counter, lowest first. -/
def onePositions (n : BitVec 64) : List Nat := (List.range 64).filter fun k => n.getLsbD k

/-- The tree invariants of R24 and R156: nothing pushed in EMPTY; in ACCEPTING the levels on the stack,
top first, are the positions of the 1 bits of the counter; exactly one entry, of level at most 64, in
FINALIZED. -/
def treeOk (s : State) : Bool :=
  match s.lifecycle with
  | .empty => s.processedChunks == 0 && s.stack.isEmpty
  | .accepting =>
    s.processedChunks != 0 && s.stack.map (fun n => n.level.toNat) == onePositions s.processedChunks
  | .finalized =>
    match s.stack with
    | [root] => decide (root.level.toNat ≤ 64)
    | _ => false

end Sys2Proof.Machine
end

