-- ==== Sys2Proof/Machine/Finalize.lean ====
section
/-! DEFINITION. The meaning of FINALIZE (42_tree_merger.md rule R154). -/

namespace Sys2Proof.Machine

/-- The chaining value of the terminal chunk of `L` bytes: its index is `processed_chunks`, and it is
the root when that is 0 (R134, R154). -/
def terminalCv (s : State) (L : Nat) : Cv :=
  chunkCv (chunkBytes s L) s.processedChunks (s.processedChunks == 0)

/-- The root node: the terminal chunk pushed at level 0 without a merge pass, then drained (R154). -/
def rootNode (s : State) (L : Nat) : Node :=
  drainOnto { cv := terminalCv s L, level := 0 } s.stack

/-- FINALIZE `len` (R154), its checks in the order of R203. An unwritten word that it needs is recorded as
the fault UnwrittenOperand (R211), and the command runs on a value that is free (R31, R207). The counter is
not incremented. -/
def execFinalize (len : BitVec 11) (s : State) : Host.Outcome State Fault Refusal :=
  if s.lifecycle = .finalized then .next (s.raiseErr .protocolMisuse)
  else if len.toNat > Config.chunkBytes then .next (s.raiseErr .inputError)
  else if s.stack.length = Config.stackDepth then .next (s.raiseErr .stackOverflow)
  else
    let noted := s.noteOperands (chunkCells s len.toNat)
    let root := rootNode s len.toNat
    .next (((noted.setTree [root] s.processedChunks).setDigest root.cv).setLifecycle .finalized).succeed

end Sys2Proof.Machine
end

