-- ==== Sys2Proof/Machine/PushChunk.lean ====
section
/-! DEFINITION. The meaning of PUSH_CHUNK (41_chunk_processor.md rule R136). -/

namespace Sys2Proof.Machine

/-- PUSH_CHUNK (R136): one interior chunk, its checks in the order of R203. An unwritten word is recorded as
the fault UnwrittenOperand (R211), and the command runs on a value that is free (R31, R207). -/
def execPushChunk (s : State) : Host.Outcome State Fault Refusal :=
  if s.lifecycle = .finalized then .next (s.raiseErr .protocolMisuse)
  else if s.processedChunks.toNat = 2 ^ 64 - 1 then .next (s.raiseErr .counterOverflow)
  else if s.stack.length = Config.stackDepth then .next (s.raiseErr .stackOverflow)
  else
    let noted := s.noteOperands (chunkCells s Config.chunkBytes)
    let cv := chunkCv (chunkBytes s Config.chunkBytes) s.processedChunks false
    .next ((noted.pushLeaf cv).setLifecycle .accepting).succeed

end Sys2Proof.Machine
end

