-- ==== Sys2Proof/Machine/ResetCommand.lean ====
section
/-! DEFINITION. The meaning of the RESET command (42_tree_merger.md rule R155). -/

namespace Sys2Proof.Machine

/-- RESET (R155): a fresh session. The operand registers, CHUNK_BUF and OUT stay. -/
def execReset (s : State) : Host.Outcome State Fault Refusal :=
  .next (((s.setTree [] 0).setDigest (Vector.replicate 8 0)).setLifecycle .empty).succeed

end Sys2Proof.Machine
end

