-- ==== Sys2Proof/Machine/Dispatch.lean ====
section
/-! DEFINITION. One arm per command: what the command engine applies to the state at completion
(70_reset_and_hazards.md rule R234). -/

namespace Sys2Proof.Machine

def exec (i : Instr) (s : State) : Host.Outcome State Fault Refusal :=
  match i with
  | .reset => Sys2Proof.Machine.execReset s
  | .compress => Sys2Proof.Machine.execCompress s
  | .pushChunk => Sys2Proof.Machine.execPushChunk s
  | .finalize len => Sys2Proof.Machine.execFinalize len s

end Sys2Proof.Machine
end

