-- ==== Sys2Proof/Machine/Registers.lean ====
section
/-! DEFINITION. The register window (10_state.md rules R30 to R34, 20_memory.md rules R50 to R52): the
register map, the bus-error conditions, and a host read and write of one register. -/

namespace Sys2Proof.Machine

/-! ### The map -/

/-- A register of the window (R30). -/
inductive Reg where
  | cmd
  | status
  | chunkCountLo
  | chunkCountHi
  | stackInfo
  | digest (i : Fin 8)
  | cvIn (i : Fin 8)
  | counterLo
  | counterHi
  | blockLen
  | flags
  | msg (i : Fin 16)
  | out (i : Fin 16)
  | chunkBuf (k : Fin 256)
deriving DecidableEq, Repr

/-- The direction of an access. -/
inductive Dir where
  | read
  | write
deriving DecidableEq, Repr

/-- The offset of each register from BASE (R30). -/
def regOffset : Reg → Nat
  | .cmd => 0x000
  | .status => 0x004
  | .chunkCountLo => 0x008
  | .chunkCountHi => 0x00C
  | .stackInfo => 0x010
  | .digest i => 0x020 + 4 * i.val
  | .cvIn i => 0x040 + 4 * i.val
  | .counterLo => 0x060
  | .counterHi => 0x064
  | .blockLen => 0x068
  | .flags => 0x06C
  | .msg i => 0x080 + 4 * i.val
  | .out i => 0x0C0 + 4 * i.val
  | .chunkBuf k => 0x400 + 4 * k.val

/-- Every register of the map, in the order of R30's table. -/
def allRegs : List Reg :=
  [Reg.cmd, Reg.status, Reg.chunkCountLo, Reg.chunkCountHi, Reg.stackInfo]
    ++ List.map Reg.digest (List.finRange 8) ++ List.map Reg.cvIn (List.finRange 8)
    ++ [Reg.counterLo, Reg.counterHi, Reg.blockLen, Reg.flags]
    ++ List.map Reg.msg (List.finRange 16) ++ List.map Reg.out (List.finRange 16)
    ++ List.map Reg.chunkBuf (List.finRange 256)

/-- The register at a byte offset of the window. There is `none` outside the window, at a misaligned offset
and at a reserved one (R52 (a), (b), (c)): no row of the map gives those. -/
def regAt (off : Nat) : Option Reg := allRegs.find? fun r => regOffset r == off

/-- Whether the map allows an access of this direction (R30): CMD is W, the results are R, the data
registers are RW. -/
def allows : Dir → Reg → Bool
  | .read, .cmd => false
  | .read, .status => true
  | .read, .chunkCountLo => true
  | .read, .chunkCountHi => true
  | .read, .stackInfo => true
  | .read, .digest _ => true
  | .read, .cvIn _ => true
  | .read, .counterLo => true
  | .read, .counterHi => true
  | .read, .blockLen => true
  | .read, .flags => true
  | .read, .msg _ => true
  | .read, .out _ => true
  | .read, .chunkBuf _ => true
  | .write, .cmd => true
  | .write, .status => false
  | .write, .chunkCountLo => false
  | .write, .chunkCountHi => false
  | .write, .stackInfo => false
  | .write, .digest _ => false
  | .write, .cvIn _ => true
  | .write, .counterLo => true
  | .write, .counterHi => true
  | .write, .blockLen => true
  | .write, .flags => true
  | .write, .msg _ => true
  | .write, .out _ => false
  | .write, .chunkBuf _ => true

/-- The register an access reaches, or a bus error (R52): (a) to (c) by the map, (b) also by the width,
(d) by the direction, (e) while BUSY = 1, when only STATUS may be read (R235). -/
def access (s : State) (d : Dir) (off width : Nat) : Except Fault Reg :=
  if width ≠ 32 then .error .busError
  else
    match regAt off with
    | none => .error .busError
    | some r =>
      if allows d r = false then .error .busError
      else if s.busy = true ∧ (d ≠ .read ∨ r ≠ .status) then .error .busError
      else .ok r

/-! ### Reads -/

/-- What a read of a register returns (R52); CMD cannot be read. A cell that nothing has written returns a
free value (R31, log entry 5). -/
def readReg (s : State) : Reg → Except Fault Word
  | .cmd => .error .busError
  | .status => .ok (statusWord s)
  | .chunkCountLo => .ok (s.processedChunks.extractLsb' 0 32)
  | .chunkCountHi => .ok (s.processedChunks.extractLsb' 32 32)
  | .stackInfo => .ok (stackInfoWord s)
  | .digest i => .ok s.digest[i]
  | .cvIn i => .ok (operandValue s (regOffset (.cvIn i)) s.cvIn[i])
  | .counterLo => .ok (operandValue s (regOffset .counterLo) s.counterLo)
  | .counterHi => .ok (operandValue s (regOffset .counterHi) s.counterHi)
  | .blockLen => .ok (operandValue s (regOffset .blockLen) s.blockLen)
  | .flags => .ok (operandValue s (regOffset .flags) s.flags)
  | .msg i => .ok (operandValue s (regOffset (.msg i)) s.msg[i])
  | .out i => .ok s.out[i]
  | .chunkBuf k => .ok (operandValue s (regOffset (.chunkBuf k)) s.chunkBuf[k])

/-- `RegRead(off)` (R10, R52). No read changes the block (R58). -/
def regRead (s : State) (off width : Nat) : Except Fault Word :=
  match access s .read off width with
  | .error f => .error f
  | .ok r => readReg s r

/-- The cell a data register holds; the other registers have none (R31). -/
def regCell (s : State) : Reg → Option (Option Word)
  | .cmd => none
  | .status => none
  | .chunkCountLo => none
  | .chunkCountHi => none
  | .stackInfo => none
  | .digest _ => none
  | .cvIn i => some s.cvIn[i]
  | .counterLo => some s.counterLo
  | .counterHi => some s.counterHi
  | .blockLen => some s.blockLen
  | .flags => some s.flags
  | .msg i => some s.msg[i]
  | .out _ => none
  | .chunkBuf k => some s.chunkBuf[k]

/-- The offset is that of a data register nothing has written since hardware reset (R31). -/
def unwrittenAt (s : State) (off : Nat) : Bool := (regAt off).bind (regCell s) == some none

/-- A register has been read: for an unwritten cell that is the fault UnwrittenRead (R31, R52). -/
def State.noteRead (s : State) (off : Nat) : State :=
  if unwrittenAt s off then s.recordFault .unwrittenRead else s

/-! ### Writes -/

/-- A write of a register (R52): CMD issues a command, an RW register stores all 32 bits (R28), and no
other register can be written. -/
def writeReg (s : State) (v : Word) : Reg → Except Fault State
  | .cmd => .ok (s.issue v)
  | .status => .error .busError
  | .chunkCountLo => .error .busError
  | .chunkCountHi => .error .busError
  | .stackInfo => .error .busError
  | .digest _ => .error .busError
  | .cvIn i => .ok { s with cvIn := s.cvIn.set i (some v) }
  | .counterLo => .ok { s with counterLo := some v }
  | .counterHi => .ok { s with counterHi := some v }
  | .blockLen => .ok { s with blockLen := some v }
  | .flags => .ok { s with flags := some v }
  | .msg i => .ok { s with msg := s.msg.set i (some v) }
  | .out _ => .error .busError
  | .chunkBuf k => .ok { s with chunkBuf := s.chunkBuf.set k (some v) }

/-- `RegWrite(off, v)` (R10, R52). -/
def regWrite (s : State) (off width : Nat) (v : Word) : Except Fault State :=
  match access s .write off width with
  | .error f => .error f
  | .ok r => writeReg s v r

/-! ### Bus addresses -/

/-- The byte address of an offset (R10, R50). -/
def busAddress (off : Nat) : Nat := Config.base + off

/-- The offset of a byte address; an address below BASE has none. -/
def windowOffset (a : Nat) : Option Nat := if Config.base ≤ a then some (a - Config.base) else none

/-- A read at a bus address. An address outside the window is a bus error (R52 (a)). -/
def busRead (s : State) (a width : Nat) : Except Fault Word :=
  match windowOffset a with
  | none => .error .busError
  | some off => regRead s off width

/-- A write at a bus address. -/
def busWrite (s : State) (a width : Nat) (v : Word) : Except Fault State :=
  match windowOffset a with
  | none => .error .busError
  | some off => regWrite s off width v

end Sys2Proof.Machine
end

