-- ==== Sys2Proof/Machine/Engine.lean ====
section
/-! DEFINITION. The two agents (00_scope.md rule R6): one host operation, the completion step of the
command engine (70_reset_and_hazards.md rule R234), and which of them moves. A model fault is recorded where
it is found (60_exceptions.md rule R207; log entry 6). -/

namespace Sys2Proof.Machine

/-! ### The host -/

/-- One operation of the host, with what follows it. A refused access is recorded as a model fault (R52).
WAIT and CHK_OK are one STATUS read each; WAIT stays in the program while BUSY = 1 (R77). -/
def hostOp (s : State) (op : HostOp) (rest : List HostOp) : Host.Outcome State Fault Refusal :=
  match op with
  | .wr off width v =>
    match regWrite s off width v with
    | .error f => .next (s.recordFault f)
    | .ok t => .next (t.setProgram rest)
  | .rd h off width =>
    match regRead s off width with
    | .error f => .next (s.recordFault f)
    | .ok v => .next (((s.setVar h v).setProgram rest).noteRead off)
  | .wait =>
    match regRead s (regOffset .status) 32 with
    | .error f => .next (s.recordFault f)
    | .ok v => .next ((s.setVar statusVar v).setProgram (if v.getLsbD 0 then .wait :: rest else rest))
  | .chkOk =>
    match regRead s (regOffset .status) 32 with
    | .error f => .next (s.recordFault f)
    | .ok v =>
      if v.extractLsb' 4 4 = 0 then .next ((s.setVar statusVar v).setProgram rest)
      else .next (s.setVar statusVar v).failHost
  | .hwReset => .next (s.assertReset.setProgram rest)

/-- The host's turn: its next operation, or nothing when its program is over. -/
def hostTurn (s : State) : Host.Outcome State Fault Refusal :=
  match s.hostProgram with
  | [] => .next s
  | op :: rest => hostOp s op rest

/-! ### The command engine -/

/-- Completion (R234): the rule of the command in INFLIGHT, or ILLEGAL_COMMAND for a word that is none,
then `BUSY <- 0`. -/
def completeCommand (s : State) : Host.Outcome State Fault Refusal :=
  match decode s.inflight with
  | .error _ => .next (s.raiseErr .illegalCommand).finishCommand
  | .ok i =>
    match exec i s with
    | .next t => .next t.finishCommand
    | .fault f => .fault f
    | .refused r => .refused r

/-- The engine's turn. A broken invariant of R24 is found here and is a model fault (R208). -/
def engineTurn (s : State) : Host.Outcome State Fault Refusal :=
  if treeOk s = true then completeCommand s else .next (s.recordFault .invariantViolation)

/-! ### The step -/

/-- Who moves: while a command is in flight, the host until the command's latency has run out, then the
engine (R236; log entry 2); otherwise the host. -/
def turn (s : State) : Host.Outcome State Fault Refusal :=
  if s.busy = true then
    if s.latencyLeft = 0 then engineTurn s else hostTurn s.countDown
  else hostTurn s

/-- One step. The reset input comes first (R230, R231); otherwise one agent takes its turn. -/
def oneStep (s : State) : Host.Outcome State Fault Refusal :=
  if s.resetInput = true then .next s.hardwareReset else turn s

/-- The command word `w` in flight and about to complete, with no reset in the way: what a placed
command needs to run in the very next step (log entry 9). -/
def placeCommand (s : State) (w : Word) : State :=
  { s with busy := true, inflight := w, latencyLeft := 0, resetInput := false }

end Sys2Proof.Machine
end

