-- ==== Sys2Proof/Machine/Step.lean ====
section
/-! DEFINITION. The step of the machine and the placing of a command for it. -/

namespace Sys2Proof.Machine

/-- One step of the machine (Machine/Engine.lean). -/
def step (s : State) : Host.Outcome State Fault Refusal := oneStep s

/-- `s` with the command word whose bits are `w` accepted and due, so that the next step completes it. The
bits above `nbits` are 0. The block fetches nothing (R11); this stands for the host's write to CMD. -/
def State.withFetchWord (s : State) (nbits w : Nat) : State :=
  placeCommand s (BitVec.ofNat 32 (w % 2 ^ nbits))

end Sys2Proof.Machine
end

