-- ==== Sys2Proof/Machine/HostProgram.lean ====
section
/-! DEFINITION. Host programs (30_encoding.md rules R76 and R77) and the command sequence a host owes the
block for one message (43_host_session.md rules R181 to R183). A program is a list of host operations;
LOOP and CMD are expanded when the program is built. -/

namespace Sys2Proof.Machine

/-! ### Notation -/

/-- `WR off, v`: a 32-bit write. -/
def opWrite (off : Nat) (v : Word) : HostOp := .wr off 32 v

/-- `RD hN, off`: a 32-bit read. -/
def opRead (h off : Nat) : HostOp := .rd h off 32

/-- `LOOP k = a..b { body }`: the body for `k = a, a+1, ..., b` (R76). -/
def opLoop (a b : Nat) (body : Nat → List HostOp) : List HostOp :=
  (List.range (b + 1 - a)).flatMap fun i => body (a + i)

/-- `CMD c`: write the command word to CMD, then WAIT (R77). -/
def opCmd (c : Instr) : List HostOp := [opWrite 0x000 (encode c), .wait]

/-! ### The session's duties -/

/-- `n(N) = max(1, ceil(N / 1024))` (R181). -/
def chunkCount (N : Nat) : Nat := max 1 ((N + 1023) / 1024)

/-- `chunk(M, i)` (R181). -/
def chunkOf (M : List Byte) (i : Nat) : List Byte := (M.drop (1024 * i)).take 1024

/-- The word of the chunk buffer that holds bytes `4k` to `4k+3` of a chunk (R55); bytes past its end,
which the command ignores, are written as 0. -/
def chunkWord (C : List Byte) (k : Nat) : Word :=
  wordOfBytes (C.getD (4 * k) 0) (C.getD (4 * k + 1) 0) (C.getD (4 * k + 2) 0) (C.getD (4 * k + 3) 0)

/-- Writes of a chunk into the words of CHUNK_BUF that it needs (R182). -/
def writeChunk (C : List Byte) : List HostOp :=
  (List.range (wordsFor C.length)).map fun k => opWrite (0x400 + 4 * k) (chunkWord C k)

/-- One interior chunk: write it, PUSH_CHUNK (R182). -/
def pushSequence (C : List Byte) : List HostOp := writeChunk C ++ opCmd .pushChunk

/-- The terminal chunk: write it, FINALIZE its length (R182). -/
def finalizeSequence (C : List Byte) : List HostOp :=
  writeChunk C ++ opCmd (.finalize (BitVec.ofNat 11 C.length))

/-- What the host owes the block for a message, from EMPTY (R182). -/
def messageProgram (M : List Byte) : List HostOp :=
  (List.range (chunkCount M.length - 1)).flatMap (fun i => pushSequence (chunkOf M i))
    ++ finalizeSequence (chunkOf M (chunkCount M.length - 1))

/-- The host's move at finalize from its held-back chunk and the bytes buffered after it: the four cases
(a) to (d) of R183. -/
def finalizeMove : Option (List Byte) → List Byte → List HostOp
  | none, tail => finalizeSequence tail
  | some held, [] => finalizeSequence held
  | some held, b :: tail => pushSequence held ++ finalizeSequence (b :: tail)

/-- The session's reset as seen by the block: CMD RESET (R185). -/
def sessionReset : List HostOp := opCmd .reset

/-! ### The session's buffering -/

/-- What the session keeps of the bytes it has been fed (R180): the held-back chunk and the bytes after
it. -/
structure Session where
  held : Option (List Byte)
  tail : List Byte
deriving DecidableEq, Repr

/-- A session that has been fed nothing. -/
def newSession : Session where
  held := none
  tail := []

/-- One byte is fed. A byte that completes a chunk forwards the held-back chunk, if there is one, as an
interior chunk, and the completed chunk is held back in its place (R182). -/
def feedByte (z : Session) (b : Byte) : Session × List HostOp :=
  if z.tail.length + 1 = Config.chunkBytes then
    ({ held := some (z.tail ++ [b]), tail := [] },
      match z.held with
      | none => []
      | some h => pushSequence h)
  else ({ held := z.held, tail := z.tail ++ [b] }, [])

/-- `feed(bytes)`: the session after it, and what the host issues to the block (R182, R186). -/
def feed (z : Session) : List Byte → Session × List HostOp
  | [] => (z, [])
  | b :: bs =>
    let first := feedByte z b
    let others := feed first.1 bs
    (others.1, first.2 ++ others.2)

end Sys2Proof.Machine
end

