-- ==== Sys2Proof/Safety.lean ====
section
/-! DEFINITION. The terms claims are stated in: which states are sound, and the hash tree that
42_tree_merger.md rule R158 describes. -/

namespace Sys2Proof.Machine

/-! ### Sound states -/

/-- No model fault has been recorded (R207). -/
def State.Safe (s : State) : Prop := s.faulted = none

/-- The step is free to give an agent its turn: no reset is pending. -/
def State.Running (s : State) : Prop := s.resetInput = false

/-- The engine's completion step is next (R234). -/
def State.Due (s : State) : Prop :=
  s.Running ∧ s.busy = true ∧ s.latencyLeft = 0 ∧ treeOk s = true

/-- The host's next operation is `op`, and no command is in flight. -/
def State.HostDoes (s : State) (op : HostOp) (rest : List HostOp) : Prop :=
  s.Running ∧ s.busy = false ∧ s.hostProgram = op :: rest

/-- The host is to move: nothing is in flight, or the latency of what is has not run out. -/
def State.HostMoves (s : State) : Prop := s.Running ∧ (s.busy = false ∨ s.latencyLeft ≠ 0)

/-- DIGEST holds the root's chaining value in FINALIZED and 0 otherwise (R25). -/
def digestOk (s : State) : Prop :=
  match s.lifecycle with
  | .finalized => s.stack.map Node.cv = [s.digest]
  | .empty => s.digest = Vector.replicate 8 0
  | .accepting => s.digest = Vector.replicate 8 0

/-- ERR never holds the reserved code 2 (R208) nor the unreachable code 6 (R200). -/
def errOk (s : State) : Prop := s.err ≠ .invariantViolation ∧ s.err ≠ .stackOverflow

/-- The invariant every step keeps. -/
def State.Inv (s : State) : Prop :=
  treeOk s = true ∧ digestOk s ∧ errOk s ∧ varsSorted s.hostVars = true

/-! ### Commands and accesses -/

/-- The words of R73 and R74: a reserved bit set, LEN set on a command without one, or a reserved OP. -/
def IllegalWord (w : Word) : Prop :=
  rsv0Field w ≠ 0 ∨ rsv1Field w ≠ 0
    ∨ (lenField w ≠ 0 ∧ (opField w = 0x1 ∨ opField w = 0x2 ∨ opField w = 0x3))
    ∨ opField w = 0x0 ∨ 0x5 ≤ (opField w).toNat

/-- The STATE after a successful command (the table of 42_tree_merger.md R156). -/
def lifecycleAfter : Instr → Lifecycle → Lifecycle
  | .reset, _ => .empty
  | .compress, l => l
  | .pushChunk, _ => .accepting
  | .finalize _, _ => .finalized

/-- The offsets R30 reserves inside the window. -/
def ReservedOffset (off : Nat) : Prop :=
  (0x014 ≤ off ∧ off < 0x020) ∨ (0x070 ≤ off ∧ off < 0x080) ∨ (0x100 ≤ off ∧ off < 0x400)

/-- The offsets of the registers R30 marks R: STATUS to STACK_INFO, DIGEST and OUT. -/
def ReadOnlyOffset (off : Nat) : Prop :=
  (0x004 ≤ off ∧ off < 0x014) ∨ (0x020 ≤ off ∧ off < 0x040) ∨ (0x0C0 ≤ off ∧ off < 0x100)

/-- R52's conditions (a) to (e). -/
def BusErrorCondition (s : State) (d : Dir) (off width : Nat) : Prop :=
  off ≥ 0x800 ∨ off % 4 ≠ 0 ∨ width ≠ 32 ∨ ReservedOffset off
    ∨ (d = .read ∧ off = 0x000) ∨ (d = .write ∧ ReadOnlyOffset off)
    ∨ (s.busy = true ∧ ¬ (d = .read ∧ off = 0x004))

/-- The state with each unwritten data-register cell holding the free value it yields when it is consumed
(10_state.md rule R31, log entry 5). -/
def State.filled (s : State) : State :=
  let fill := fun (off : Nat) (c : Option Word) => some (c.getD (Config.unwrittenValue s off))
  { s with
    cvIn := Vector.ofFn fun i => fill (0x040 + 4 * i.val) s.cvIn[i]
    counterLo := fill 0x060 s.counterLo
    counterHi := fill 0x064 s.counterHi
    blockLen := fill 0x068 s.blockLen
    flags := fill 0x06C s.flags
    msg := Vector.ofFn fun i => fill (0x080 + 4 * i.val) s.msg[i]
    chunkBuf := Vector.ofFn fun k => fill (0x400 + 4 * k.val) s.chunkBuf[k] }

/-! ### The hash tree -/

/-- The largest power of two below `k`, for `k ≥ 2` (R158). -/
def splitSize (k : Nat) : Nat := 2 ^ (k - 1).log2

/-- `H(lo, k, top)` of R158 over the chunks `cs`: the chaining value of the `k` chunks from number `lo`.
`fuel` bounds the depth; `k` is always enough. -/
def treeCv (cs : List (List Byte)) : (fuel lo k : Nat) → (top : Bool) → Cv
  | 0, lo, _, top => chunkCv (cs.getD lo []) (BitVec.ofNat 64 lo) top
  | fuel + 1, lo, k, top =>
    if k ≤ 1 then chunkCv (cs.getD lo []) (BitVec.ofNat 64 lo) top
    else
      parentCv (treeCv cs fuel lo (splitSize k) false)
        (treeCv cs fuel (lo + splitSize k) (k - splitSize k) false) (parentFlags top)

/-- The root of the whole tree: `H(0, n, true)` (R158, R187). -/
def treeRoot (cs : List (List Byte)) : Cv := treeCv cs cs.length 0 cs.length true

/-- The node of level `k` that a stack holds after the chunks `cs` when bit `k` of their number is set: it
covers `2^k` chunks, from the number with bits `k` and below cleared (R24). -/
def forestNode (cs : List (List Byte)) (k : Nat) : Node :=
  { cv := treeCv cs (2 ^ k) (cs.length >>> (k + 1) <<< (k + 1)) (2 ^ k) false
    level := BitVec.ofNat 7 k }

/-- The block has taken exactly the interior chunks `cs` (R22, R24). -/
def State.Holds (s : State) (cs : List (List Byte)) : Prop :=
  s.lifecycle ≠ .finalized ∧ cs.length < 2 ^ 64
    ∧ s.processedChunks = BitVec.ofNat 64 cs.length
    ∧ s.stack = (onePositions s.processedChunks).map (forestNode cs)

end Sys2Proof.Machine
end

