-- ==== Sys2Proof/Certificates/Slice0/Obligations.lean ====
section
/-! DEFINITION. The statements for the provers. Each one's docstring names the rule of the spec it
formalises. -/

open Sys2Proof Sys2Proof.Machine

/-! ### Command words -/

/-- A word decodes to a command exactly when it is that command's encoding: decode and encode agree, each
command has one word, and no bit of a word is dropped (30_encoding.md R70, R71, R75). -/
def Obligations.DecodeIsInverseOfEncode : Prop :=
  ∀ (w : Word) (i : Instr), decode w = .ok i ↔ w = encode i

/-- The legal command words are RESET, COMPRESS, PUSH_CHUNK and FINALIZE of 0 to 1024 bytes, and the words
of FINALIZE with a LEN of 1025 to 2047 still decode as FINALIZE (30_encoding.md R72, R75). -/
def Obligations.LegalCommandWords : Prop :=
  ∀ w : Word,
    ((∃ i, decode w = .ok i ∧ i.WellFormed)
      ↔ w = 0x00000001 ∨ w = 0x00000002 ∨ w = 0x00000003
        ∨ ∃ L : Nat, L ≤ 1024 ∧ w = 0x00000004 ||| BitVec.ofNat 32 L <<< 8)
    ∧ ((∃ len, decode w = .ok (.finalize len) ∧ ¬ (Instr.finalize len).WellFormed)
      ↔ ∃ L : Nat, 1025 ≤ L ∧ L ≤ 2047 ∧ w = 0x00000004 ||| BitVec.ofNat 32 L <<< 8)

/-- An illegal word in flight completes with ILLEGAL_COMMAND (4) and no other effect than the end of the
command (30_encoding.md R73, R74). -/
def Obligations.IllegalWordReportsCodeFour : Prop :=
  errBits .illegalCommand = 4
    ∧ ∀ s : State, s.Due → IllegalWord s.inflight →
        step s = .next { s with err := .illegalCommand, busy := false }

/-- The worked encodings of 30_encoding.md R75, the seven illegal words of 95_test_vectors.md section 2.6, and
the one of section 2.5. -/
def Obligations.WorkedWordsDecode : Prop :=
  decode 0x00000001 = .ok .reset ∧ decode 0x00000002 = .ok .compress
    ∧ decode 0x00000003 = .ok .pushChunk ∧ decode 0x00000004 = .ok (.finalize 0)
    ∧ decode 0x00000104 = .ok (.finalize 1) ∧ decode 0x00000304 = .ok (.finalize 3)
    ∧ decode 0x00004004 = .ok (.finalize 64) ∧ decode 0x00040004 = .ok (.finalize 1024)
    ∧ decode 0x00040104 = .ok (.finalize 1025)
    ∧ decode 0x00000000 = .error .reservedOp ∧ decode 0x00000005 = .error .reservedOp
    ∧ decode 0x0000000F = .error .reservedOp ∧ decode 0x00000014 = .error .reservedBits
    ∧ decode 0x00000101 = .error .lenNotZero ∧ decode 0x00000102 = .error .lenNotZero
    ∧ decode 0x00080004 = .error .reservedBits ∧ decode 0x80000004 = .error .reservedBits

/-! ### The step -/

/-- When the command in flight is due and its word decodes to `i`, the step is `exec i`, which answers a next
state; the step adds the end of BUSY (70_reset_and_hazards.md R234). -/
def Obligations.StepRunsCommandInFlight : Prop :=
  ∀ (s : State) (i : Instr), s.Due → decode s.inflight = .ok i →
    ∃ t, exec i s = .next t ∧ step s = .next { t with busy := false }

/-- A word placed by `withFetchWord` runs in the very next step (the model's own means, log entry 9). -/
def Obligations.PlacedWordRunsNext : Prop :=
  ∀ (s t : State) (nbits w : Nat) (i : Instr), treeOk s = true → decodeTableWord nbits w = some i →
    exec i (s.withFetchWord nbits w) = .next t →
      step (s.withFetchWord nbits w) = .next { t with busy := false }

/-- Issue and completion (70_reset_and_hazards.md R234): a write of any word to CMD sets BUSY and INFLIGHT
and nothing else of the block; the completion, one step, applies the rule of the decoded command or raises
ILLEGAL_COMMAND, and clears BUSY. The last two fields of the issue are the model's (log entry 2). -/
def Obligations.CommandRunsInTwoSteps : Prop :=
  (∀ (s : State) (w : Word) (rest : List HostOp), s.HostDoes (.wr 0x000 32 w) rest →
    step s = .next { s with
      busy := true, inflight := w, hostProgram := rest
      issued := s.issued + 1, latencyLeft := Config.cmdLatency s w })
  ∧ (∀ (s t : State) (i : Instr), s.Due → decode s.inflight = .ok i → exec i s = .next t →
      step s = .next { t with busy := false })
  ∧ (∀ (s : State) (e : DecodeError), s.Due → decode s.inflight = .error e →
      step s = .next { s with err := .illegalCommand, busy := false })

/-- A command in flight completes in the step after its latency has run out, whatever the host does short of
a hardware reset: then BUSY is 0 (R236; the latency is counted in host turns, log entry 2). -/
def Obligations.CommandInFlightCompletes : Prop :=
  ∀ s : State, s.Running → s.busy = true → treeOk s = true → .hwReset ∉ s.hostProgram →
    ∃ t, core.run (s.latencyLeft + 1) s = .next t ∧ t.busy = false

/-- Every step answers a next state, and so does every command on every state: none is refused and none ends
in a fault (30_encoding.md R78; that a model fault is recorded in a next state is log entry 6). -/
def Obligations.NoStepIsRefused : Prop :=
  (∀ s : State, ∃ t, step s = .next t) ∧ ∀ (i : Instr) (s : State), ∃ t, exec i s = .next t

/-- The engine records an InvariantViolation when it finds the tree invariants broken (60_exceptions.md
R208). When it looks is log entry 8; that the record empties the host's program and leaves all else, BUSY
included, is log entry 6, and that a fault recorded before stays is log entry 7. -/
def Obligations.BrokenInvariantIsRecorded : Prop :=
  ∀ s : State, s.Running → s.busy = true → s.latencyLeft = 0 → treeOk s = false →
    step s = .next { s with faulted := some (s.faulted.getD .invariantViolation), hostProgram := [] }

/-! ### RESET -/

/-- RESET succeeds in every state with exactly its five writes (42_tree_merger.md R155). -/
def Obligations.ResetCommandStartsNewSession : Prop :=
  ∀ s : State, exec .reset s = .next { s with
    lifecycle := .empty, processedChunks := 0, stack := [], digest := Vector.replicate 8 0, err := .ok }

/-- After RESET the next command gives the same tree state and error whatever went before, for equal
operand registers and CHUNK_BUF, if the command meets no unwritten operand (42_tree_merger.md R155, corner
cases). -/
def Obligations.ResetForgetsEarlierSession : Prop :=
  ∀ (s₁ s₂ t₁ t₂ u₁ : State) (i : Instr),
    compressCells s₁ = compressCells s₂ → s₁.chunkBuf = s₂.chunkBuf →
    exec .reset s₁ = .next t₁ → exec .reset s₂ = .next t₂ → exec i t₁ = .next u₁ →
    (u₁.faulted = none ∨ (∀ c ∈ compressCells s₁, c ≠ none) ∧ ∀ k : Fin 256, s₁.chunkBuf[k] ≠ none) →
      ∃ u₂, exec i t₂ = .next u₂ ∧ u₂.lifecycle = u₁.lifecycle
        ∧ u₂.processedChunks = u₁.processedChunks ∧ u₂.stack = u₁.stack ∧ u₂.digest = u₁.digest
        ∧ u₂.err = u₁.err

/-! ### COMPRESS -/

/-- COMPRESS with every operand written, BLOCK_LEN at most 64 and FLAGS[31:7] zero writes the compression
of its operands to OUT, OK to ERR, and nothing else (40_compression.md R110). -/
def Obligations.CompressWritesOut : Prop :=
  ∀ (s : State) (cv : Cv) (m : Block) (lo hi bl fl : Word),
    s.cvIn = cv.map some → s.counterLo = some lo → s.counterHi = some hi → s.blockLen = some bl →
    s.flags = some fl → s.msg = m.map some → bl.toNat ≤ 64 → fl.extractLsb' 7 25 = 0 →
      exec .compress s = .next { s with
        out := compressBlock m cv (BitVec.ofNat 64 (hi.toNat * 2 ^ 32 + lo.toNat)) (bl.extractLsb' 0 8) fl
        err := .ok }

/-- COMPRESS with every operand written and BLOCK_LEN above 64 or a bit of FLAGS[31:7] set reports
INPUT_ERROR and keeps OUT (40_compression.md R110). -/
def Obligations.CompressRejectsBadOperands : Prop :=
  ∀ (s : State) (cv : Cv) (m : Block) (lo hi bl fl : Word),
    s.cvIn = cv.map some → s.counterLo = some lo → s.counterHi = some hi → s.blockLen = some bl →
    s.flags = some fl → s.msg = m.map some → (64 < bl.toNat ∨ fl.extractLsb' 7 25 ≠ 0) →
      exec .compress s = .next { s with err := .inputError }

/-- The compression function from end to end: the IV (40_compression.md R100), G by its formula (R103),
one round as the eight calls of G (R104), seven rounds with six permutations between them (R106), the
working vector at the start (R105) and the output words (R107, R108). The IV words, the words each call of G
takes and which IV words enter the vector are the spec's own, from general knowledge (log entry 12). -/
def Obligations.CompressionStartsAndEnds : Prop :=
  iv = #v[0x6A09E667, 0xBB67AE85, 0x3C6EF372, 0xA54FF53A, 0x510E527F, 0x9B05688C, 0x1F83D9AB, 0x5BE0CD19]
  ∧ (∀ a b c d m0 m1 : Word,
    let a1 := a + b + m0
    let d1 := (d ^^^ a1).rotateRight 16
    let c1 := c + d1
    let b1 := (b ^^^ c1).rotateRight 12
    let a2 := a1 + b1 + m1
    let d2 := (d1 ^^^ a2).rotateRight 8
    let c2 := c1 + d2
    g a b c d m0 m1 = (a2, (b1 ^^^ c2).rotateRight 7, c2, d2))
  ∧ (∀ v m : Block,
    let p := g v[0] v[4] v[8] v[12] m[0] m[1]
    let q := g v[1] v[5] v[9] v[13] m[2] m[3]
    let r := g v[2] v[6] v[10] v[14] m[4] m[5]
    let s := g v[3] v[7] v[11] v[15] m[6] m[7]
    let p' := g p.1 q.2.1 r.2.2.1 s.2.2.2 m[8] m[9]
    let q' := g q.1 r.2.1 s.2.2.1 p.2.2.2 m[10] m[11]
    let r' := g r.1 s.2.1 p.2.2.1 q.2.2.2 m[12] m[13]
    let s' := g s.1 p.2.1 q.2.2.1 r.2.2.2 m[14] m[15]
    Machine.round v m = #v[p'.1, q'.1, r'.1, s'.1, s'.2.1, p'.2.1, q'.2.1, r'.2.1,
      r'.2.2.1, s'.2.2.1, p'.2.2.1, q'.2.2.1, q'.2.2.2, r'.2.2.2, s'.2.2.2, p'.2.2.2])
  ∧ (∀ v m : Block, rounds 1 v m = Machine.round v m
      ∧ ∀ k, rounds (k + 2) v m = rounds (k + 1) (Machine.round v m) (permute m))
  ∧ ∀ (m : Block) (cv : Cv) (counter : BitVec 64) (len : BitVec 8) (fl : Word),
    (∀ i : Fin 8, (initVector cv counter len fl)[i.val] = cv[i])
    ∧ (∀ i : Fin 4, (initVector cv counter len fl)[8 + i.val] = iv[i.val])
    ∧ (initVector cv counter len fl)[12].toNat = counter.toNat % 2 ^ 32
    ∧ (initVector cv counter len fl)[13].toNat = counter.toNat / 2 ^ 32
    ∧ (initVector cv counter len fl)[14].toNat = len.toNat
    ∧ (initVector cv counter len fl)[15] = fl
    ∧ (∀ i : Fin 8, (compressBlock m cv counter len fl)[i.val]
        = (rounds 7 (initVector cv counter len fl) m)[i.val]
            ^^^ (rounds 7 (initVector cv counter len fl) m)[i.val + 8])
    ∧ (∀ i : Fin 8, (compressBlock m cv counter len fl)[i.val + 8]
        = (rounds 7 (initVector cv counter len fl) m)[i.val + 8] ^^^ cv[i])
    ∧ (∀ i : Fin 8, (compressCv m cv counter len fl)[i] = (compressBlock m cv counter len fl)[i.val])

/-- The permutation of any schedule (40_compression.md R102), and the schedules of the seven rounds as
indices into the block (the table of R106). The direction of the permutation is from general knowledge
(log entry 12). -/
def Obligations.RoundSchedules : Prop :=
  (∀ m : Block, permute m
    = #v[m[2], m[6], m[3], m[10], m[7], m[0], m[4], m[13], m[1], m[11], m[12], m[5], m[9], m[14], m[15],
         m[8]])
  ∧ let m : Block := #v[0, 1, 2, 3, 4, 5, 6, 7, 8, 9, 10, 11, 12, 13, 14, 15]
  permute m = #v[2, 6, 3, 10, 7, 0, 4, 13, 1, 11, 12, 5, 9, 14, 15, 8]
    ∧ permute (permute m) = #v[3, 4, 10, 12, 13, 2, 7, 14, 6, 5, 9, 0, 11, 15, 8, 1]
    ∧ permute (permute (permute m)) = #v[10, 7, 12, 9, 14, 3, 13, 15, 4, 0, 11, 2, 5, 8, 1, 6]
    ∧ permute (permute (permute (permute m)))
        = #v[12, 13, 9, 11, 15, 10, 14, 8, 7, 2, 5, 3, 0, 1, 6, 4]
    ∧ permute (permute (permute (permute (permute m))))
        = #v[9, 14, 11, 5, 8, 12, 15, 1, 13, 3, 0, 10, 2, 6, 4, 7]
    ∧ permute (permute (permute (permute (permute (permute m)))))
        = #v[11, 15, 5, 0, 1, 9, 8, 6, 14, 10, 2, 12, 3, 4, 7, 13]

/-- COMPRESS depends on nothing but its 28 operand cells: from two states that agree on them, all written, it
gives the same error, and the same OUT where it succeeds (40_compression.md R110). -/
def Obligations.CompressDependsOnOperandsOnly : Prop :=
  ∀ s₁ s₂ : State, compressCells s₁ = compressCells s₂ → (∀ c ∈ compressCells s₁, c ≠ none) →
    ∃ t₁ t₂, exec .compress s₁ = .next t₁ ∧ exec .compress s₂ = .next t₂
      ∧ t₂.err = t₁.err ∧ (t₁.err = .ok → t₂.out = t₁.out)

/-! ### PUSH_CHUNK -/

/-- PUSH_CHUNK that meets none of its errors, with CHUNK_BUF written, pushes the chunk's chaining value at
level 0, merges, counts the chunk, and moves to ACCEPTING (41_chunk_processor.md R136, R151). -/
def Obligations.PushChunkPushesAndMerges : Prop :=
  ∀ (s : State) (ws : Vector Word 256), s.chunkBuf = ws.map some → s.lifecycle ≠ .finalized →
    s.processedChunks.toNat ≠ 2 ^ 64 - 1 → s.stack.length ≠ 65 →
      exec .pushChunk s = .next { s with
        stack := mergeReady
          ({ cv := chunkCv (bytesLe ws.toList) s.processedChunks false, level := 0 } :: s.stack)
        processedChunks := s.processedChunks + 1
        lifecycle := .accepting
        err := .ok }

/-- The errors of PUSH_CHUNK, in the order of R203, each changing ERR alone, and ERR OK otherwise (R136, R201,
R203). That it is OK also with a word of CHUNK_BUF unwritten, where R136 and R203 step 6 give the fault that
UnwrittenOperandFaults states, is the model's choice: the command runs on (log entry 6). -/
def Obligations.PushChunkErrorsInOrder : Prop :=
  ∀ s : State,
    if s.lifecycle = .finalized then exec .pushChunk s = .next { s with err := .protocolMisuse }
    else if s.processedChunks.toNat = 2 ^ 64 - 1 then
      exec .pushChunk s = .next { s with err := .counterOverflow }
    else if s.stack.length = 65 then exec .pushChunk s = .next { s with err := .stackOverflow }
    else ∃ t, exec .pushChunk s = .next t ∧ t.err = .ok

/-! ### FINALIZE -/

/-- FINALIZE of `len` bytes that meets none of its errors, with the words it needs written, drains the
terminal chunk over the stack and latches the root. `C` is the chunk: byte `k` is byte `k mod 4` of word
`k div 4` of CHUNK_BUF (42_tree_merger.md R154, 20_memory.md R55). -/
def Obligations.FinalizeLatchesRoot : Prop :=
  ∀ (s : State) (len : BitVec 11) (C : List Byte), s.lifecycle ≠ .finalized → len.toNat ≤ 1024 →
    s.stack.length ≠ 65 →
    (∀ k : Fin 256, k.val < (len.toNat + 3) / 4 → s.chunkBuf[k] ≠ none) →
    C.length = len.toNat →
    (∀ (k : Fin 256) (j : Fin 4) (w : Word), 4 * k.val + j.val < len.toNat → s.chunkBuf[k] = some w →
      C[4 * k.val + j.val]? = some (w.extractLsb' (8 * j.val) 8)) →
      ∃ root, root = drainOnto { cv := chunkCv C s.processedChunks (s.processedChunks == 0), level := 0 }
            s.stack
        ∧ exec (.finalize len) s = .next { s with
            stack := [root], digest := root.cv, lifecycle := .finalized, err := .ok }

/-- The errors of FINALIZE, in the order of R203, each changing ERR alone, and ERR OK otherwise (R154, R201,
R203). That it is OK also with a word it consumes unwritten, where R154 and R203 step 6 give the fault that
UnwrittenOperandFaults states, is the model's choice: the command runs on (log entry 6). -/
def Obligations.FinalizeErrorsInOrder : Prop :=
  ∀ (s : State) (len : BitVec 11),
    if s.lifecycle = .finalized then exec (.finalize len) s = .next { s with err := .protocolMisuse }
    else if 1024 < len.toNat then exec (.finalize len) s = .next { s with err := .inputError }
    else if s.stack.length = 65 then exec (.finalize len) s = .next { s with err := .stackOverflow }
    else ∃ t, exec (.finalize len) s = .next t ∧ t.err = .ok

/-- Bytes of CHUNK_BUF at index `len` and above do not affect FINALIZE `len` (42_tree_merger.md R154): two
buffers that are written where it needs them and agree below `len` give the same. -/
def Obligations.FinalizeIgnoresPaddingBytes : Prop :=
  ∀ (s t : State) (len : BitVec 11) (buf : Vector (Option Word) 256),
    exec (.finalize len) s = .next t → t.err = .ok →
    (∀ k : Fin 256, k.val < (len.toNat + 3) / 4 → ∃ w w', s.chunkBuf[k] = some w ∧ buf[k] = some w'
      ∧ ∀ j : Fin 4, 4 * k.val + j.val < len.toNat →
        w.extractLsb' (8 * j.val) 8 = w'.extractLsb' (8 * j.val) 8) →
      exec (.finalize len) { s with chunkBuf := buf } = .next { t with chunkBuf := buf }

/-- The drain, merge by merge (42_tree_merger.md R153, R157): over an empty stack the node itself is left; over
a stack it is merged with each entry in turn, ROOT being set on the last merge, the one with the bottom entry,
and on no other; a merge gives the parent of the two chaining values, one level above the left node, so the
root stands one level above the bottom entry (92_eei_decisions.md D16). That PARENT is 0x04 and ROOT 0x08 is
R101's, from general knowledge (log entry 12); that the level is a 7-bit sum is log entry 19. -/
def Obligations.DrainSetsRootOnLastMergeOnly : Prop :=
  (∀ right : Node, drainOnto right [] = right)
  ∧ (∀ (left right : Node) (flags : Word), mergeNodes left right flags
      = { cv := parentCv left.cv right.cv flags, level := left.level + 1 })
  ∧ ∀ (right bottom : Node) (above : List Node),
      drainOnto right (above ++ [bottom])
          = mergeNodes bottom (above.foldl (fun r l => mergeNodes l r 0x04) right) 0x0C
        ∧ (drainOnto right (above ++ [bottom])).level = bottom.level + 1

/-! ### All commands -/

/-- What each command may change; everything else of the state is as before, the operand registers,
CHUNK_BUF and the host included (R110, R136, R154, R155: "State written"). With an unwritten operand the record
of the fault comes to it (60_exceptions.md R207, R211; log entries 6 and 7). -/
def Obligations.CommandFrames : Prop :=
  (∀ s t, exec .reset s = .next t → t = { s with
      lifecycle := t.lifecycle, processedChunks := t.processedChunks, stack := t.stack
      digest := t.digest, err := t.err })
  ∧ (∀ s t, exec .compress s = .next t →
      t = { s with out := t.out, err := t.err }
      ∨ (∃ c ∈ compressCells s, c = none) ∧ t = { s with
          out := t.out, err := t.err
          faulted := some (s.faulted.getD .unwrittenOperand), hostProgram := [] })
  ∧ (∀ s t, exec .pushChunk s = .next t →
      t = { s with
        stack := t.stack, processedChunks := t.processedChunks, lifecycle := t.lifecycle, err := t.err }
      ∨ (∃ k : Fin 256, s.chunkBuf[k] = none) ∧ t = { s with
          stack := t.stack, processedChunks := t.processedChunks, lifecycle := t.lifecycle, err := t.err
          faulted := some (s.faulted.getD .unwrittenOperand), hostProgram := [] })
  ∧ (∀ len s t, exec (.finalize len) s = .next t →
      t = { s with stack := t.stack, digest := t.digest, lifecycle := t.lifecycle, err := t.err }
      ∨ (∃ k : Fin 256, k.val < (len.toNat + 3) / 4 ∧ s.chunkBuf[k] = none) ∧ t = { s with
          stack := t.stack, digest := t.digest, lifecycle := t.lifecycle, err := t.err
          faulted := some (s.faulted.getD .unwrittenOperand), hostProgram := [] })

/-- A command that completes with an error writes ERR and nothing else (60_exceptions.md R202). -/
def Obligations.FailedCommandWritesErrOnly : Prop :=
  ∀ s t : State, s.Due → step s = .next t → t.err ≠ .ok →
    t = { s with err := t.err, busy := false }

/-- Every completed command writes ERR: the state after it does not depend on what ERR held
(60_exceptions.md R204). An unwritten operand is left out, because its free value may depend on anything (log
entry 5). -/
def Obligations.CompletionOverwritesErr : Prop :=
  ∀ (s t : State) (e : ErrCode), s.Due → step s = .next t →
    (t.faulted = none ∨ (∀ c ∈ compressCells s, c ≠ none) ∧ ∀ k : Fin 256, s.chunkBuf[k] ≠ none) →
      step { s with err := e } = .next t

/-- A completed command reports each error exactly on its causes (60_exceptions.md R201), in the order of
R203: so COMPRESS reports INPUT_ERROR only if no operand cell is unwritten. -/
def Obligations.ErrorCauses : Prop :=
  ∀ s t : State, s.Due → step s = .next t →
    (t.err = .illegalCommand ↔ ∃ e, decode s.inflight = .error e)
    ∧ (t.err = .protocolMisuse ↔ s.lifecycle = .finalized
        ∧ (decode s.inflight = .ok .pushChunk ∨ ∃ len, decode s.inflight = .ok (.finalize len)))
    ∧ (t.err = .inputError ↔
        (∃ len, decode s.inflight = .ok (.finalize len) ∧ s.lifecycle ≠ .finalized ∧ 1024 < len.toNat)
        ∨ (decode s.inflight = .ok .compress ∧ (∀ c ∈ compressCells s, c ≠ none)
          ∧ ((∃ v, s.blockLen = some v ∧ 64 < v.toNat) ∨ ∃ v, s.flags = some v ∧ v.extractLsb' 7 25 ≠ 0)))
    ∧ (t.err = .counterOverflow ↔ decode s.inflight = .ok .pushChunk ∧ s.lifecycle ≠ .finalized
        ∧ s.processedChunks.toNat = 2 ^ 64 - 1)
    ∧ (t.err = .stackOverflow ↔ s.stack.length = 65 ∧ s.lifecycle ≠ .finalized
        ∧ ((decode s.inflight = .ok .pushChunk ∧ s.processedChunks.toNat ≠ 2 ^ 64 - 1)
          ∨ ∃ len, decode s.inflight = .ok (.finalize len) ∧ len.toNat ≤ 1024))
    ∧ t.err ≠ .invariantViolation

/-- A command records UnwrittenOperand exactly when one of the cells it consumes is unwritten, once the checks
before that one have passed (60_exceptions.md R203, R211), and then runs as if each unwritten cell held a
free value (10_state.md R31), COMPRESS without its later checks, which R203 does not let it report. That the
record empties the host's program and that the command goes on is log entry 6, the free value log entry 5. -/
def Obligations.UnwrittenOperandFaults : Prop :=
  ∀ s t : State,
    (s.faulted = none →
      (exec .compress s = .next t → (t.faulted = some .unwrittenOperand
        ↔ (∃ i : Fin 8, s.cvIn[i] = none) ∨ s.counterLo = none ∨ s.counterHi = none ∨ s.blockLen = none
          ∨ s.flags = none ∨ ∃ i : Fin 16, s.msg[i] = none))
      ∧ (exec .pushChunk s = .next t → (t.faulted = some .unwrittenOperand
        ↔ s.lifecycle ≠ .finalized ∧ s.processedChunks.toNat ≠ 2 ^ 64 - 1 ∧ s.stack.length ≠ 65
          ∧ ∃ k : Fin 256, s.chunkBuf[k] = none))
      ∧ (∀ len : BitVec 11, exec (.finalize len) s = .next t → (t.faulted = some .unwrittenOperand
        ↔ s.lifecycle ≠ .finalized ∧ len.toNat ≤ 1024 ∧ s.stack.length ≠ 65
          ∧ ∃ k : Fin 256, k.val < (len.toNat + 3) / 4 ∧ s.chunkBuf[k] = none))
      ∧ (exec .reset s = .next t → t.faulted = none)
      ∧ ∀ i, exec i s = .next t → t.faulted ≠ none → t.hostProgram = [])
    ∧ ((∃ c ∈ compressCells s, c = none) → exec .compress s = .next t →
        t.out = compressOutput s.filled ∧ t.err = .ok)
    ∧ ∀ i, i ≠ .compress → exec i s = .next t →
        ∃ u, exec i s.filled = .next u
          ∧ t.lifecycle = u.lifecycle ∧ t.processedChunks = u.processedChunks ∧ t.stack = u.stack
          ∧ t.digest = u.digest ∧ t.out = u.out ∧ t.err = u.err

/-- The lifecycle table (42_tree_merger.md R156): a success moves STATE as the table says, a failure
leaves it, PUSH_CHUNK and FINALIZE in FINALIZED fail with PROTOCOL_MISUSE, and but for hardware reset
STATE changes only when a decoded command completes with success. -/
def Obligations.LifecycleTable : Prop :=
  (∀ (i : Instr) (s t : State), exec i s = .next t →
    (t.err = .ok → t.lifecycle = lifecycleAfter i s.lifecycle)
    ∧ (t.err ≠ .ok → t.lifecycle = s.lifecycle)
    ∧ (s.lifecycle = .finalized → (i = .pushChunk ∨ ∃ len, i = .finalize len) →
        t.err = .protocolMisuse))
  ∧ ∀ s t : State, s.resetInput = false → step s = .next t → t.lifecycle ≠ s.lifecycle →
      s.busy = true ∧ t.busy = false ∧ t.err = .ok ∧ ∃ i, decode s.inflight = .ok i

/-! ### The tree -/

/-- The levels on a sound stack: strictly decreasing from bottom to top before FINALIZE, one for each 1 bit
of the counter, never more than 64 entries, and exactly one entry in FINALIZED (10_state.md R24). -/
def Obligations.StackShape : Prop :=
  ∀ s : State, treeOk s = true →
    s.stack.length ≤ 64
    ∧ (s.lifecycle ≠ .finalized →
        (s.stack.map fun n => n.level.toNat).Pairwise (· < ·)
        ∧ s.stack.length = (onePositions s.processedChunks).length)
    ∧ (s.lifecycle = .finalized → s.stack.length = 1)

/-- The merge pass of a successful PUSH_CHUNK merges as many times as the new count has trailing zero bits
(42_tree_merger.md R152). -/
def Obligations.MergesEqualTrailingZeros : Prop :=
  ∀ s t : State, treeOk s = true → exec .pushChunk s = .next t → t.err = .ok →
    ∃ z, 2 ^ z ∣ t.processedChunks.toNat ∧ ¬ 2 ^ (z + 1) ∣ t.processedChunks.toNat ∧ z ≤ 63
      ∧ s.stack.length + 1 = t.stack.length + z

/-- After PUSH_CHUNK the stack holds the chunks so far and the new one, each node over its aligned run of
chunks (10_state.md R24, 42_tree_merger.md R151, R152). -/
def Obligations.PushChunkExtendsForest : Prop :=
  ∀ (s : State) (cs : List (List Byte)) (ws : Vector Word 256), s.Holds cs → cs.length + 1 < 2 ^ 64 →
    s.chunkBuf = ws.map some →
      ∃ t, exec .pushChunk s = .next t ∧ t.err = .ok ∧ t.Holds (cs ++ [bytesLe ws.toList])

/-- FINALIZE after the interior chunks `cs` gives the root of the left-balanced tree over them and the
terminal chunk: `H(0, n, true)` (42_tree_merger.md R158), and its bytes are the digest's (20_memory.md
R56). -/
def Obligations.FinalizeGivesTreeRoot : Prop :=
  ∀ (s : State) (cs : List (List Byte)) (len : BitVec 11) (ws : Vector Word 256), s.Holds cs →
    len.toNat ≤ 1024 → s.chunkBuf = ws.map some →
      ∃ t, exec (.finalize len) s = .next t ∧ t.err = .ok
        ∧ t.digest = treeRoot (cs ++ [(bytesLe ws.toList).take len.toNat])
        ∧ digestBytes t = bytesLe (treeRoot (cs ++ [(bytesLe ws.toList).take len.toNat])).toList

/-- A block after hardware reset or RESET has taken no chunk (70_reset_and_hazards.md R230,
42_tree_merger.md R155). -/
def Obligations.ResetHoldsNoChunk : Prop :=
  State.reset.Holds [] ∧ ∀ s t : State, exec .reset s = .next t → t.Holds []

/-- The flags of block `j` of a chunk (41_chunk_processor.md R131): CHUNK_START on block 0, CHUNK_END on
the last, ROOT on the last of the root chunk, and no other bit. That these are bits 0, 1 and 3 is R101's,
from general knowledge (log entry 12). -/
def Obligations.BlockFlagBits : Prop :=
  ∀ (j n : Nat) (root : Bool), j < n →
    ((blockFlags j n root).getLsbD 0 = true ↔ j = 0)
    ∧ ((blockFlags j n root).getLsbD 1 = true ↔ j = n - 1)
    ∧ ((blockFlags j n root).getLsbD 3 = true ↔ j = n - 1 ∧ root = true)
    ∧ ∀ b, b ≠ 0 → b ≠ 1 → b ≠ 3 → (blockFlags j n root).getLsbD b = false

/-! ### Bytes and words -/

/-- `words_le` and `bytes_le` by their formulas, and inverse to each other (20_memory.md R53, R54); and the
digest's byte form: its 32 bytes are those of DIGEST in order, the first is DIGEST[0][7:0], and for
DIGEST[0] = 0xB94913AF they begin AF 13 49 B9 (R56). -/
def Obligations.WordsAndBytesAreInverse : Prop :=
  (∀ (B : List Byte) (n i : Nat), B.length = 4 * n → i < n →
    (wordsLe B)[i]? = some ((B.getD (4 * i) 0).setWidth 32 ||| (B.getD (4 * i + 1) 0).setWidth 32 <<< 8
      ||| (B.getD (4 * i + 2) 0).setWidth 32 <<< 16 ||| (B.getD (4 * i + 3) 0).setWidth 32 <<< 24))
  ∧ (∀ (W : List Word) (i : Nat) (j : Fin 4) (w : Word), W[i]? = some w →
      (bytesLe W)[4 * i + j.val]? = some (w.extractLsb' (8 * j.val) 8))
  ∧ (∀ W : List Word, wordsLe (bytesLe W) = W)
  ∧ (∀ (B : List Byte) (n : Nat), B.length = 4 * n → bytesLe (wordsLe B) = B)
  ∧ ∀ s : State, (digestBytes s).length = 32
      ∧ (∀ (i : Fin 8) (j : Fin 4),
          (digestBytes s)[4 * i.val + j.val]? = some (s.digest[i].extractLsb' (8 * j.val) 8))
      ∧ (digestBytes s)[0]? = some (s.digest[0].extractLsb' 0 8)
      ∧ (s.digest[0] = 0xB94913AF → (digestBytes s).take 4 = [0xAF, 0x13, 0x49, 0xB9])

/-- The chunk buffer's byte order: chunk byte `k` is byte `k mod 4` of word `k div 4`, the host's word for
bytes `4k..4k+3` is their `words_le`, and block `j` is words `16j..16j+15` (20_memory.md R55). -/
def Obligations.ChunkBufferByteOrder : Prop :=
  ∀ (s : State) (ws : Vector Word 256), s.chunkBuf = ws.map some →
    (∀ (k : Fin 256) (j : Fin 4),
      (chunkBytes s 1024)[4 * k.val + j.val]? = some (ws[k].extractLsb' (8 * j.val) 8))
    ∧ (∀ k : Fin 256, chunkWord (chunkBytes s 1024) k.val = ws[k])
    ∧ (∀ j i : Fin 16, (chunkBlock (chunkBytes s 1024) j.val)[i.val]
        = ws[16 * j.val + i.val]'(by omega))

/-- The chunk and parent functions, for a chunk of `L` bytes: `n = max(1, ceil(L / 64))` blocks, each of 64
bytes but the last; word `i` of block `j` is made of bytes `64j + 4i` to `64j + 4i + 3`, 0 past the end of
the chunk; the blocks are chained from the IV, all with counter `t` and each with its own flags
(41_chunk_processor.md R130 to R133, R135); and a parent is the compression of `left ‖ right` with the IV,
counter 0 and length 64 (42_tree_merger.md R150). -/
def Obligations.ChunkAndParentFunctions : Prop :=
  (∀ (C : List Byte) (t : BitVec 64) (root : Bool), C.length ≤ 1024 →
    let n := max 1 ((C.length + 63) / 64)
    let size := fun j => if j < n - 1 then 64 else C.length - 64 * (n - 1)
    (∀ (j : Nat) (i : Fin 16), j < n →
      (chunkBlock C j)[i] = (C.getD (64 * j + 4 * i.val) 0).setWidth 32
        ||| (C.getD (64 * j + 4 * i.val + 1) 0).setWidth 32 <<< 8
        ||| (C.getD (64 * j + 4 * i.val + 2) 0).setWidth 32 <<< 16
        ||| (C.getD (64 * j + 4 * i.val + 3) 0).setWidth 32 <<< 24)
    ∧ ∃ chain : Nat → Cv, chain 0 = iv
        ∧ (∀ j, j < n → chain (j + 1)
            = compressCv (chunkBlock C j) (chain j) t (BitVec.ofNat 8 (size j)) (blockFlags j n root))
        ∧ chunkCv C t root = chain n)
  ∧ ∀ (left right : Cv) (flags : Word),
      parentCv left right flags = compressCv (left ++ right) iv 0 64 flags

/-! ### Registers -/

/-- Each register has one offset and each mapped offset one register (10_state.md R30). -/
def Obligations.RegisterMapIsOneToOne : Prop :=
  ∀ (r : Reg) (off : Nat), regAt off = some r ↔ off = regOffset r

/-- An access is refused, with a bus error, exactly under R52's conditions, and a refused access of the
host changes no block state, gives no read value, sets `faulted` and stops the host's program
(20_memory.md R52). That a fault recorded before stays is log entry 7; the latency is the model's (log entry
2). -/
def Obligations.BusErrorConditions : Prop :=
  (∀ (s : State) (d : Dir) (off width : Nat),
    access s d off width = .error .busError ↔ BusErrorCondition s d off width)
  ∧ ∀ (s : State) (op : HostOp) (rest : List HostOp), s.HostMoves → s.hostProgram = op :: rest →
      ((∃ h off width, op = .rd h off width ∧ BusErrorCondition s .read off width)
        ∨ ∃ off width v, op = .wr off width v ∧ BusErrorCondition s .write off width) →
      step s = .next { s with
        faulted := some (s.faulted.getD .busError), hostProgram := []
        latencyLeft := if s.busy then s.latencyLeft - 1 else s.latencyLeft }

/-- While BUSY = 1 STATUS can be read and every other access is a bus error (70_reset_and_hazards.md
R235). -/
def Obligations.BusyAllowsStatusReadOnly : Prop :=
  ∀ s : State, s.busy = true →
    regRead s 0x004 32 = .ok (statusWord s)
    ∧ (∀ off width, ¬ (off = 0x004 ∧ width = 32) → regRead s off width = .error .busError)
    ∧ (∀ off width v, regWrite s off width v = .error .busError)

/-- A read changes nothing but the host's variable: it has no side effect on the block, also while BUSY
(20_memory.md R58). For an unwritten cell the model fault is recorded (10_state.md R31; log entries 6 and
7). -/
def Obligations.ReadsHaveNoSideEffect : Prop :=
  ∀ (s : State) (h off width : Nat) (v : Word) (rest : List HostOp), s.HostMoves →
    s.hostProgram = .rd h off width :: rest → regRead s off width = .ok v →
      ∃ t, step s = .next t ∧ lookup h t.hostVars = some v
        ∧ (∀ k, k ≠ h → lookup k t.hostVars = lookup k s.hostVars)
        ∧ t = { s with
            hostVars := t.hostVars
            faulted := if unwrittenAt s off then some (s.faulted.getD .unwrittenRead) else s.faulted
            hostProgram := if unwrittenAt s off then [] else rest
            latencyLeft := if s.busy then s.latencyLeft - 1 else s.latencyLeft }

/-- A write of an RW register is read back in full, and changes what no other offset reads
(10_state.md R28, R30; 20_memory.md R58). A cell that nothing has written stays unwritten, and what it reads is
free after the write as before it (R31, log entry 5). -/
def Obligations.WrittenRegisterReadsBack : Prop :=
  ∀ (s t : State) (off : Nat) (v : Word), off ≠ 0x000 → regWrite s off 32 v = .ok t →
    regRead t off 32 = .ok v ∧ unwrittenAt t off = false
      ∧ ∀ off', off' ≠ off → unwrittenAt t off' = unwrittenAt s off'
        ∧ (unwrittenAt s off' = false → regRead t off' 32 = regRead s off' 32)

/-- Every RW offset can be written with any value while BUSY = 0, and the write changes that cell only
(10_state.md R28, R29, R30). -/
def Obligations.DataRegistersStoreEveryBit : Prop :=
  ∀ (s : State) (v : Word), s.busy = false →
    (∀ i : Fin 8, regWrite s (0x040 + 4 * i.val) 32 v = .ok { s with cvIn := s.cvIn.set i (some v) })
    ∧ regWrite s 0x060 32 v = .ok { s with counterLo := some v }
    ∧ regWrite s 0x064 32 v = .ok { s with counterHi := some v }
    ∧ regWrite s 0x068 32 v = .ok { s with blockLen := some v }
    ∧ regWrite s 0x06C 32 v = .ok { s with flags := some v }
    ∧ (∀ i : Fin 16, regWrite s (0x080 + 4 * i.val) 32 v = .ok { s with msg := s.msg.set i (some v) })
    ∧ (∀ k : Fin 256, regWrite s (0x400 + 4 * k.val) 32 v
        = .ok { s with chunkBuf := s.chunkBuf.set k (some v) })

/-- A host read of an unwritten data-register cell is the fault UnwrittenRead: it is recorded, the host's
program is over, and the variable gets a free value (10_state.md R31, 60_exceptions.md R207). The free value is
log entry 5; that the record holds the kind of fault, keeps an earlier one and leaves all else is log entries 6
and 7. -/
def Obligations.UnwrittenCellReadFaults : Prop :=
  ∀ s : State, s.busy = false →
    (∀ i : Fin 8, unwrittenAt s (0x040 + 4 * i.val) = true ↔ s.cvIn[i] = none)
    ∧ (unwrittenAt s 0x060 = true ↔ s.counterLo = none)
    ∧ (unwrittenAt s 0x064 = true ↔ s.counterHi = none)
    ∧ (unwrittenAt s 0x068 = true ↔ s.blockLen = none)
    ∧ (unwrittenAt s 0x06C = true ↔ s.flags = none)
    ∧ (∀ i : Fin 16, unwrittenAt s (0x080 + 4 * i.val) = true ↔ s.msg[i] = none)
    ∧ (∀ k : Fin 256, unwrittenAt s (0x400 + 4 * k.val) = true ↔ s.chunkBuf[k] = none)
    ∧ ∀ h off rest, s.HostDoes (.rd h off 32) rest → unwrittenAt s off = true →
        ∃ v, regRead s off 32 = .ok v
          ∧ step s = .next { s with
              hostVars := assign h v s.hostVars
              faulted := some (s.faulted.getD .unwrittenRead), hostProgram := [] }

/-- The fields of STATUS, and that a command in flight leaves STATE and ERR readable as they were
(10_state.md R32, R21, R200). -/
def Obligations.StatusFields : Prop :=
  ∀ s : State, ∃ w, regRead s 0x004 32 = .ok w
    ∧ w.getLsbD 0 = s.busy
    ∧ (w.extractLsb' 1 2).toNat
        = (match s.lifecycle with | .empty => 0 | .accepting => 1 | .finalized => 2)
    ∧ w.getLsbD 3 = false
    ∧ (w.extractLsb' 4 4).toNat
        = (match s.err with
          | .ok => 0 | .protocolMisuse => 1 | .invariantViolation => 2 | .inputError => 3
          | .illegalCommand => 4 | .counterOverflow => 5 | .stackOverflow => 6)
    ∧ w.extractLsb' 8 24 = 0
    ∧ ∀ v, s.busy = false → regRead (s.issue v) 0x004 32 = .ok (w ||| 1)

/-- The fields of STACK_INFO and its value after reset (10_state.md R33), and that it can only be read
(R30). -/
def Obligations.StackInfoFields : Prop :=
  regRead State.reset 0x010 32 = .ok 0
  ∧ (∀ (s : State) (v : Word), regWrite s 0x010 32 v = .error .busError)
  ∧ ∀ s : State, s.busy = false → s.stack.length ≤ 65 →
    ∃ w, regRead s 0x010 32 = .ok w
      ∧ (w.extractLsb' 0 7).toNat = s.stack.length
      ∧ w.getLsbD 7 = false
      ∧ (s.stack = [] → w.extractLsb' 8 7 = 0)
      ∧ (∀ top below, s.stack = top :: below → w.extractLsb' 8 7 = top.level)
      ∧ w.extractLsb' 15 17 = 0

/-- CHUNK_COUNT_LO and CHUNK_COUNT_HI read the two halves of the counter, DIGEST the digest and OUT the
output of COMPRESS, word by word (10_state.md R25, R26, R30, R34; 20_memory.md R52). -/
def Obligations.ChunkCountReads : Prop :=
  ∀ s : State, s.busy = false →
    ∃ lo hi, regRead s 0x008 32 = .ok lo ∧ regRead s 0x00C 32 = .ok hi
      ∧ hi.toNat * 2 ^ 32 + lo.toNat = s.processedChunks.toNat
      ∧ (∀ i : Fin 8, regRead s (0x020 + 4 * i.val) 32 = .ok s.digest[i])
      ∧ (∀ i : Fin 16, regRead s (0x0C0 + 4 * i.val) 32 = .ok s.out[i])

/-- The window stands at BASE, a multiple of 0x800: the address BASE + off reaches offset `off`, and an
address outside the window reaches nothing (20_memory.md R50, R52 (a)). It holds for every BASE. -/
def Obligations.WindowStandsAtBase : Prop :=
  Config.base % 0x800 = 0
  ∧ ∀ (s : State) (width : Nat) (v : Word),
      (∀ off, busRead s (Config.base + off) width = regRead s off width
        ∧ busWrite s (Config.base + off) width v = regWrite s off width v)
      ∧ ∀ a, (a < Config.base ∨ Config.base + 0x800 ≤ a) →
          busRead s a width = .error .busError ∧ busWrite s a width v = .error .busError

/-- Data registers change only when the host writes them: a step that is neither a hardware reset nor a
host write leaves every operand cell and CHUNK_BUF as they were (10_state.md R28, R29). -/
def Obligations.DataRegistersChangeByHostWriteOnly : Prop :=
  ∀ s t : State, s.resetInput = false → step s = .next t →
    (∀ off width v rest, s.hostProgram ≠ .wr off width v :: rest) →
      compressCells t = compressCells s ∧ t.chunkBuf = s.chunkBuf

/-- While a command is in flight its operands and its word stay as they were when it was issued
(20_memory.md R60). -/
def Obligations.OperandsStayWhileBusy : Prop :=
  ∀ s t : State, s.resetInput = false → s.busy = true → step s = .next t →
    compressCells t = compressCells s ∧ t.chunkBuf = s.chunkBuf ∧ t.inflight = s.inflight

/-! ### Faults and reset -/

/-- A recorded fault is never cleared, not even by hardware reset: it stands after any number of steps, and the
host whose program it stopped does nothing more; a step that records one sets `faulted`, stops the host's
program, and otherwise changes what the access or command changes and nothing else (60_exceptions.md R207). How
a fault is recorded is log entries 6 and 7. -/
def Obligations.FaultIsNeverCleared : Prop :=
  (∀ (s t : State) (f : Fault) (k : Nat), s.faulted = some f → core.run k s = .next t →
    t.faulted = some f ∧ (s.hostProgram = [] → t.hostProgram = []))
  ∧ ∀ (s t : State) (f : Fault), s.faulted = none → step s = .next t → t.faulted = some f →
      t.hostProgram = []
        ∧ match f with
          | .busError => t = { s with
              faulted := some .busError, hostProgram := [], latencyLeft := t.latencyLeft }
          | .unwrittenRead => t = { s with
              faulted := some .unwrittenRead, hostProgram := [], hostVars := t.hostVars }
          | .unwrittenOperand => s.busy = true ∧ t = { s with
              lifecycle := t.lifecycle, processedChunks := t.processedChunks, stack := t.stack
              digest := t.digest, out := t.out, err := t.err, busy := false
              faulted := some .unwrittenOperand, hostProgram := [] }
          | .invariantViolation => t = { s with faulted := some .invariantViolation, hostProgram := [] }

/-- Hardware reset, also in the middle of a command: every piece of block state takes the value of R230's
table, a recorded fault stays, and the registers read as it says (70_reset_and_hazards.md R230, R231). That
the input acts in the very next step and is lowered by it is the model's choice (log entry 11). -/
def Obligations.HardwareResetValues : Prop :=
  ∀ s : State, s.resetInput = true →
    ∃ t, step s = .next t
      ∧ t.lifecycle = .empty ∧ t.processedChunks = 0 ∧ t.stack = []
      ∧ t.digest = Vector.replicate 8 0 ∧ t.out = Vector.replicate 16 0
      ∧ t.busy = false ∧ t.err = .ok ∧ t.faulted = s.faulted ∧ t.resetInput = false
      ∧ (∀ c ∈ compressCells t, c = none) ∧ (∀ k : Fin 256, t.chunkBuf[k] = none)
      ∧ regRead t 0x004 32 = .ok 0 ∧ regRead t 0x008 32 = .ok 0 ∧ regRead t 0x00C 32 = .ok 0
      ∧ regRead t 0x010 32 = .ok 0
      ∧ (∀ i : Fin 8, regRead t (0x020 + 4 * i.val) 32 = .ok 0)
      ∧ (∀ i : Fin 16, regRead t (0x0C0 + 4 * i.val) 32 = .ok 0)

/-- The state after reset: the values of R230's table (70_reset_and_hazards.md R230). That no fault is
recorded there is the model's choice (log entry 26). -/
def Obligations.ResetStateValues : Prop :=
  State.reset.lifecycle = .empty ∧ State.reset.processedChunks = 0 ∧ State.reset.stack = []
    ∧ State.reset.digest = Vector.replicate 8 0 ∧ State.reset.out = Vector.replicate 16 0
    ∧ State.reset.busy = false ∧ State.reset.err = .ok ∧ State.reset.faulted = none
    ∧ (∀ c ∈ compressCells State.reset, c = none)
    ∧ (∀ k : Fin 256, State.reset.chunkBuf[k] = none)
    ∧ regRead State.reset 0x004 32 = .ok 0

/-! ### The host -/

/-- Host operations take effect one at a time, in program order (20_memory.md R57): the program is consumed
from its front or ended; a step that is not the host's leaves it, unless it records a fault; in the host's
turn the whole effect of the step is that of the first operation: a write stores or issues, a read, WAIT and
CHK_OK assign a variable, and the rest of the program stays for later; and with no operation left nothing
changes (R62, log entry 16). A turn of the host while BUSY = 1 counts one off the latency (log entry 2); one
access a step is log entry 16, the reset input log entry 11. -/
def Obligations.HostOperationsRunInOrder : Prop :=
  ∀ s t : State, step s = .next t →
    (t.hostProgram = s.hostProgram ∨ t.hostProgram = s.hostProgram.tail
      ∨ (t.hostProgram = [] ∧ (t.faulted ≠ none ∨ t.hostFailed = true)))
    ∧ (¬ s.HostMoves → t.hostProgram = s.hostProgram ∨ t.faulted ≠ none)
    ∧ (s.HostMoves → s.hostProgram = [] →
        t = { s with latencyLeft := if s.busy then s.latencyLeft - 1 else s.latencyLeft })
    ∧ ∀ op rest, s.HostMoves → s.hostProgram = op :: rest → t.faulted = none →
        let left := if s.busy then s.latencyLeft - 1 else s.latencyLeft
        match op with
        | .wr off width v => ∃ u, regWrite s off width v = .ok u ∧ t = { u with hostProgram := rest }
        | .rd h off width => ∃ v, regRead s off width = .ok v
            ∧ t = { s with hostVars := assign h v s.hostVars, hostProgram := rest, latencyLeft := left }
        | .wait => t = { s with
            hostVars := assign 0 (statusWord s) s.hostVars
            hostProgram := if s.busy then .wait :: rest else rest
            latencyLeft := left }
        | .chkOk => t = { s with
            hostVars := assign 0 (statusWord s) s.hostVars
            hostProgram := if s.err = .ok then rest else []
            hostFailed := s.hostFailed || s.err != .ok
            latencyLeft := left }
        | .hwReset => t = { s with resetInput := true, hostProgram := rest, latencyLeft := left }

/-- WAIT and CHK_OK, and the expansions of CMD (30_encoding.md R77). One access a step is log entry 16, the
number of `h_s` log entry 25, and the latency that WAIT counts down while BUSY = 1 log entry 2. -/
def Obligations.PseudoInstructions : Prop :=
  (∀ (s : State) (rest : List HostOp), s.HostDoes .wait rest →
    step s = .next { s with hostVars := assign 0 (statusWord s) s.hostVars, hostProgram := rest })
  ∧ (∀ (s : State) (rest : List HostOp), s.Running → s.busy = true → s.latencyLeft ≠ 0 →
      s.hostProgram = .wait :: rest →
      step s = .next { s with
        hostVars := assign 0 (statusWord s) s.hostVars, latencyLeft := s.latencyLeft - 1 })
  ∧ (∀ (s : State) (rest : List HostOp), s.HostDoes .chkOk rest → s.err = .ok →
      step s = .next { s with hostVars := assign 0 (statusWord s) s.hostVars, hostProgram := rest })
  ∧ (∀ (s : State) (rest : List HostOp), s.HostDoes .chkOk rest → s.err ≠ .ok →
      step s = .next { s with
        hostVars := assign 0 (statusWord s) s.hostVars, hostProgram := [], hostFailed := true })
  ∧ opCmd .reset = [.wr 0x000 32 0x00000001, .wait]
  ∧ opCmd .compress = [.wr 0x000 32 0x00000002, .wait]
  ∧ opCmd .pushChunk = [.wr 0x000 32 0x00000003, .wait]
  ∧ ∀ len : BitVec 11, opCmd (.finalize len)
      = [.wr 0x000 32 (0x00000004 ||| len.setWidth 32 <<< 8), .wait]

/-- The session's feeding and its four finalize moves issue exactly the command sequence owed for the
message, whatever its length (43_host_session.md R182, R183). -/
def Obligations.SessionIssuesOwedSequence : Prop :=
  ∀ M : List Byte,
    (feed newSession M).2 ++ finalizeMove (feed newSession M).1.held (feed newSession M).1.tail
      = messageProgram M

/-- Feeding two runs of bytes one after the other is feeding them at once (43_host_session.md R187,
chunking independence). -/
def Obligations.FeedIsChunkingIndependent : Prop :=
  ∀ (z : Session) (a b : List Byte),
    feed z (a ++ b)
      = ((feed (feed z a).1 b).1, (feed z a).2 ++ (feed (feed z a).1 b).2)

/-! ### The invariant -/

/-- Every step keeps the invariant: the tree invariants of R24 and R156, DIGEST the root's value in
FINALIZED and 0 otherwise (R25), ERR never 2 and never 6 (R208, R200), and the host's variables in their
one form. -/
def Obligations.StepKeepsInvariant : Prop :=
  ∀ s t : State, s.Inv → step s = .next t → t.Inv

/-- The state after reset meets the invariant. -/
def Obligations.ResetMeetsInvariant : Prop := State.reset.Inv
end

