-- ==== Sys2Proof/Laws/Bytes.lean ====
section
/-! SUPPORT. Bytes and words: taking a word apart and putting it together are inverse, and the lengths of
the byte forms. -/

namespace Sys2Proof.Machine

@[simp] theorem byteOfWord_wordOfBytes_0 (a b c d : Byte) :
    byteOfWord (wordOfBytes a b c d) 0 = a := by
  ext i hi
  interval_cases i <;> simp [byteOfWord, wordOfBytes]

@[simp] theorem byteOfWord_wordOfBytes_1 (a b c d : Byte) :
    byteOfWord (wordOfBytes a b c d) 1 = b := by
  ext i hi
  interval_cases i <;> simp [byteOfWord, wordOfBytes]

@[simp] theorem byteOfWord_wordOfBytes_2 (a b c d : Byte) :
    byteOfWord (wordOfBytes a b c d) 2 = c := by
  ext i hi
  interval_cases i <;> simp [byteOfWord, wordOfBytes]

@[simp] theorem byteOfWord_wordOfBytes_3 (a b c d : Byte) :
    byteOfWord (wordOfBytes a b c d) 3 = d := by
  ext i hi
  interval_cases i <;> simp [byteOfWord, wordOfBytes]

@[simp] theorem bytesLe_nil : bytesLe [] = [] := rfl

@[simp] theorem bytesLe_cons (w : Word) (ws : List Word) :
    bytesLe (w :: ws)
      = byteOfWord w 0 :: byteOfWord w 1 :: byteOfWord w 2 :: byteOfWord w 3 :: bytesLe ws := rfl

@[simp] theorem bytesLe_length (ws : List Word) : (bytesLe ws).length = 4 * ws.length := by
  induction ws with
  | nil => rfl
  | cons w ws ih => simp [ih]; omega

@[simp] theorem digestBytes_length (s : State) : (digestBytes s).length = 32 := by
  simp [digestBytes]

@[simp] theorem chunkBytes_length (s : State) {L : Nat} (h : L ≤ 1024) :
    (chunkBytes s L).length = L := by
  simp [chunkBytes, chunkWords]; omega

theorem nblocks_pos (L : Nat) : 0 < nblocks L := by simp [nblocks]

theorem nblocks_le (L : Nat) (h : L ≤ 1024) : nblocks L ≤ 16 := by simp [nblocks]; omega

/-- Every block of a chunk has at most 64 bytes. -/
theorem blen_le (L j : Nat) : blen L j ≤ 64 := by
  unfold blen
  split
  · exact Nat.le_refl _
  · simp only [nblocks]; omega

end Sys2Proof.Machine
end

