-- ==== Sys2Proof/Laws/State.lean ====
section
/-! SUPPORT. What each named update of the state does to each field: one lemma per field per update, all
true by definition, so that no proof unfolds a record update. -/

namespace Sys2Proof.Machine

variable (s : State)

/-! ### raiseErr -/

@[simp] theorem State.raiseErr_lifecycle (c : ErrCode) : (s.raiseErr c).lifecycle = s.lifecycle := rfl
@[simp] theorem State.raiseErr_processedChunks (c : ErrCode) : (s.raiseErr c).processedChunks = s.processedChunks := rfl
@[simp] theorem State.raiseErr_stack (c : ErrCode) : (s.raiseErr c).stack = s.stack := rfl
@[simp] theorem State.raiseErr_digest (c : ErrCode) : (s.raiseErr c).digest = s.digest := rfl
@[simp] theorem State.raiseErr_out (c : ErrCode) : (s.raiseErr c).out = s.out := rfl
@[simp] theorem State.raiseErr_busy (c : ErrCode) : (s.raiseErr c).busy = s.busy := rfl
@[simp] theorem State.raiseErr_inflight (c : ErrCode) : (s.raiseErr c).inflight = s.inflight := rfl
@[simp] theorem State.raiseErr_err (c : ErrCode) : (s.raiseErr c).err = c := rfl
@[simp] theorem State.raiseErr_cvIn (c : ErrCode) : (s.raiseErr c).cvIn = s.cvIn := rfl
@[simp] theorem State.raiseErr_counterLo (c : ErrCode) : (s.raiseErr c).counterLo = s.counterLo := rfl
@[simp] theorem State.raiseErr_counterHi (c : ErrCode) : (s.raiseErr c).counterHi = s.counterHi := rfl
@[simp] theorem State.raiseErr_blockLen (c : ErrCode) : (s.raiseErr c).blockLen = s.blockLen := rfl
@[simp] theorem State.raiseErr_flags (c : ErrCode) : (s.raiseErr c).flags = s.flags := rfl
@[simp] theorem State.raiseErr_msg (c : ErrCode) : (s.raiseErr c).msg = s.msg := rfl
@[simp] theorem State.raiseErr_chunkBuf (c : ErrCode) : (s.raiseErr c).chunkBuf = s.chunkBuf := rfl
@[simp] theorem State.raiseErr_faulted (c : ErrCode) : (s.raiseErr c).faulted = s.faulted := rfl
@[simp] theorem State.raiseErr_resetInput (c : ErrCode) : (s.raiseErr c).resetInput = s.resetInput := rfl
@[simp] theorem State.raiseErr_hostProgram (c : ErrCode) : (s.raiseErr c).hostProgram = s.hostProgram := rfl
@[simp] theorem State.raiseErr_hostVars (c : ErrCode) : (s.raiseErr c).hostVars = s.hostVars := rfl
@[simp] theorem State.raiseErr_hostFailed (c : ErrCode) : (s.raiseErr c).hostFailed = s.hostFailed := rfl
@[simp] theorem State.raiseErr_issued (c : ErrCode) : (s.raiseErr c).issued = s.issued := rfl
@[simp] theorem State.raiseErr_latencyLeft (c : ErrCode) : (s.raiseErr c).latencyLeft = s.latencyLeft := rfl

/-! ### succeed -/

@[simp] theorem State.succeed_lifecycle : (s.succeed).lifecycle = s.lifecycle := rfl
@[simp] theorem State.succeed_processedChunks : (s.succeed).processedChunks = s.processedChunks := rfl
@[simp] theorem State.succeed_stack : (s.succeed).stack = s.stack := rfl
@[simp] theorem State.succeed_digest : (s.succeed).digest = s.digest := rfl
@[simp] theorem State.succeed_out : (s.succeed).out = s.out := rfl
@[simp] theorem State.succeed_busy : (s.succeed).busy = s.busy := rfl
@[simp] theorem State.succeed_inflight : (s.succeed).inflight = s.inflight := rfl
@[simp] theorem State.succeed_err : (s.succeed).err = .ok := rfl
@[simp] theorem State.succeed_cvIn : (s.succeed).cvIn = s.cvIn := rfl
@[simp] theorem State.succeed_counterLo : (s.succeed).counterLo = s.counterLo := rfl
@[simp] theorem State.succeed_counterHi : (s.succeed).counterHi = s.counterHi := rfl
@[simp] theorem State.succeed_blockLen : (s.succeed).blockLen = s.blockLen := rfl
@[simp] theorem State.succeed_flags : (s.succeed).flags = s.flags := rfl
@[simp] theorem State.succeed_msg : (s.succeed).msg = s.msg := rfl
@[simp] theorem State.succeed_chunkBuf : (s.succeed).chunkBuf = s.chunkBuf := rfl
@[simp] theorem State.succeed_faulted : (s.succeed).faulted = s.faulted := rfl
@[simp] theorem State.succeed_resetInput : (s.succeed).resetInput = s.resetInput := rfl
@[simp] theorem State.succeed_hostProgram : (s.succeed).hostProgram = s.hostProgram := rfl
@[simp] theorem State.succeed_hostVars : (s.succeed).hostVars = s.hostVars := rfl
@[simp] theorem State.succeed_hostFailed : (s.succeed).hostFailed = s.hostFailed := rfl
@[simp] theorem State.succeed_issued : (s.succeed).issued = s.issued := rfl
@[simp] theorem State.succeed_latencyLeft : (s.succeed).latencyLeft = s.latencyLeft := rfl

/-! ### recordFault -/

@[simp] theorem State.recordFault_lifecycle (f : Fault) : (s.recordFault f).lifecycle = s.lifecycle := rfl
@[simp] theorem State.recordFault_processedChunks (f : Fault) : (s.recordFault f).processedChunks = s.processedChunks := rfl
@[simp] theorem State.recordFault_stack (f : Fault) : (s.recordFault f).stack = s.stack := rfl
@[simp] theorem State.recordFault_digest (f : Fault) : (s.recordFault f).digest = s.digest := rfl
@[simp] theorem State.recordFault_out (f : Fault) : (s.recordFault f).out = s.out := rfl
@[simp] theorem State.recordFault_busy (f : Fault) : (s.recordFault f).busy = s.busy := rfl
@[simp] theorem State.recordFault_inflight (f : Fault) : (s.recordFault f).inflight = s.inflight := rfl
@[simp] theorem State.recordFault_err (f : Fault) : (s.recordFault f).err = s.err := rfl
@[simp] theorem State.recordFault_cvIn (f : Fault) : (s.recordFault f).cvIn = s.cvIn := rfl
@[simp] theorem State.recordFault_counterLo (f : Fault) : (s.recordFault f).counterLo = s.counterLo := rfl
@[simp] theorem State.recordFault_counterHi (f : Fault) : (s.recordFault f).counterHi = s.counterHi := rfl
@[simp] theorem State.recordFault_blockLen (f : Fault) : (s.recordFault f).blockLen = s.blockLen := rfl
@[simp] theorem State.recordFault_flags (f : Fault) : (s.recordFault f).flags = s.flags := rfl
@[simp] theorem State.recordFault_msg (f : Fault) : (s.recordFault f).msg = s.msg := rfl
@[simp] theorem State.recordFault_chunkBuf (f : Fault) : (s.recordFault f).chunkBuf = s.chunkBuf := rfl
@[simp] theorem State.recordFault_faulted (f : Fault) : (s.recordFault f).faulted = some (s.faulted.getD f) := rfl
@[simp] theorem State.recordFault_resetInput (f : Fault) : (s.recordFault f).resetInput = s.resetInput := rfl
@[simp] theorem State.recordFault_hostProgram (f : Fault) : (s.recordFault f).hostProgram = [] := rfl
@[simp] theorem State.recordFault_hostVars (f : Fault) : (s.recordFault f).hostVars = s.hostVars := rfl
@[simp] theorem State.recordFault_hostFailed (f : Fault) : (s.recordFault f).hostFailed = s.hostFailed := rfl
@[simp] theorem State.recordFault_issued (f : Fault) : (s.recordFault f).issued = s.issued := rfl
@[simp] theorem State.recordFault_latencyLeft (f : Fault) : (s.recordFault f).latencyLeft = s.latencyLeft := rfl

/-! ### assertReset -/

@[simp] theorem State.assertReset_lifecycle : (s.assertReset).lifecycle = s.lifecycle := rfl
@[simp] theorem State.assertReset_processedChunks : (s.assertReset).processedChunks = s.processedChunks := rfl
@[simp] theorem State.assertReset_stack : (s.assertReset).stack = s.stack := rfl
@[simp] theorem State.assertReset_digest : (s.assertReset).digest = s.digest := rfl
@[simp] theorem State.assertReset_out : (s.assertReset).out = s.out := rfl
@[simp] theorem State.assertReset_busy : (s.assertReset).busy = s.busy := rfl
@[simp] theorem State.assertReset_inflight : (s.assertReset).inflight = s.inflight := rfl
@[simp] theorem State.assertReset_err : (s.assertReset).err = s.err := rfl
@[simp] theorem State.assertReset_cvIn : (s.assertReset).cvIn = s.cvIn := rfl
@[simp] theorem State.assertReset_counterLo : (s.assertReset).counterLo = s.counterLo := rfl
@[simp] theorem State.assertReset_counterHi : (s.assertReset).counterHi = s.counterHi := rfl
@[simp] theorem State.assertReset_blockLen : (s.assertReset).blockLen = s.blockLen := rfl
@[simp] theorem State.assertReset_flags : (s.assertReset).flags = s.flags := rfl
@[simp] theorem State.assertReset_msg : (s.assertReset).msg = s.msg := rfl
@[simp] theorem State.assertReset_chunkBuf : (s.assertReset).chunkBuf = s.chunkBuf := rfl
@[simp] theorem State.assertReset_faulted : (s.assertReset).faulted = s.faulted := rfl
@[simp] theorem State.assertReset_resetInput : (s.assertReset).resetInput = true := rfl
@[simp] theorem State.assertReset_hostProgram : (s.assertReset).hostProgram = s.hostProgram := rfl
@[simp] theorem State.assertReset_hostVars : (s.assertReset).hostVars = s.hostVars := rfl
@[simp] theorem State.assertReset_hostFailed : (s.assertReset).hostFailed = s.hostFailed := rfl
@[simp] theorem State.assertReset_issued : (s.assertReset).issued = s.issued := rfl
@[simp] theorem State.assertReset_latencyLeft : (s.assertReset).latencyLeft = s.latencyLeft := rfl

/-! ### issue -/

@[simp] theorem State.issue_lifecycle (w : Word) : (s.issue w).lifecycle = s.lifecycle := rfl
@[simp] theorem State.issue_processedChunks (w : Word) : (s.issue w).processedChunks = s.processedChunks := rfl
@[simp] theorem State.issue_stack (w : Word) : (s.issue w).stack = s.stack := rfl
@[simp] theorem State.issue_digest (w : Word) : (s.issue w).digest = s.digest := rfl
@[simp] theorem State.issue_out (w : Word) : (s.issue w).out = s.out := rfl
@[simp] theorem State.issue_busy (w : Word) : (s.issue w).busy = true := rfl
@[simp] theorem State.issue_inflight (w : Word) : (s.issue w).inflight = w := rfl
@[simp] theorem State.issue_err (w : Word) : (s.issue w).err = s.err := rfl
@[simp] theorem State.issue_cvIn (w : Word) : (s.issue w).cvIn = s.cvIn := rfl
@[simp] theorem State.issue_counterLo (w : Word) : (s.issue w).counterLo = s.counterLo := rfl
@[simp] theorem State.issue_counterHi (w : Word) : (s.issue w).counterHi = s.counterHi := rfl
@[simp] theorem State.issue_blockLen (w : Word) : (s.issue w).blockLen = s.blockLen := rfl
@[simp] theorem State.issue_flags (w : Word) : (s.issue w).flags = s.flags := rfl
@[simp] theorem State.issue_msg (w : Word) : (s.issue w).msg = s.msg := rfl
@[simp] theorem State.issue_chunkBuf (w : Word) : (s.issue w).chunkBuf = s.chunkBuf := rfl
@[simp] theorem State.issue_faulted (w : Word) : (s.issue w).faulted = s.faulted := rfl
@[simp] theorem State.issue_resetInput (w : Word) : (s.issue w).resetInput = s.resetInput := rfl
@[simp] theorem State.issue_hostProgram (w : Word) : (s.issue w).hostProgram = s.hostProgram := rfl
@[simp] theorem State.issue_hostVars (w : Word) : (s.issue w).hostVars = s.hostVars := rfl
@[simp] theorem State.issue_hostFailed (w : Word) : (s.issue w).hostFailed = s.hostFailed := rfl
@[simp] theorem State.issue_issued (w : Word) : (s.issue w).issued = s.issued + 1 := rfl
@[simp] theorem State.issue_latencyLeft (w : Word) : (s.issue w).latencyLeft = Config.cmdLatency s w := rfl

/-! ### finishCommand -/

@[simp] theorem State.finishCommand_lifecycle : (s.finishCommand).lifecycle = s.lifecycle := rfl
@[simp] theorem State.finishCommand_processedChunks : (s.finishCommand).processedChunks = s.processedChunks := rfl
@[simp] theorem State.finishCommand_stack : (s.finishCommand).stack = s.stack := rfl
@[simp] theorem State.finishCommand_digest : (s.finishCommand).digest = s.digest := rfl
@[simp] theorem State.finishCommand_out : (s.finishCommand).out = s.out := rfl
@[simp] theorem State.finishCommand_busy : (s.finishCommand).busy = false := rfl
@[simp] theorem State.finishCommand_inflight : (s.finishCommand).inflight = s.inflight := rfl
@[simp] theorem State.finishCommand_err : (s.finishCommand).err = s.err := rfl
@[simp] theorem State.finishCommand_cvIn : (s.finishCommand).cvIn = s.cvIn := rfl
@[simp] theorem State.finishCommand_counterLo : (s.finishCommand).counterLo = s.counterLo := rfl
@[simp] theorem State.finishCommand_counterHi : (s.finishCommand).counterHi = s.counterHi := rfl
@[simp] theorem State.finishCommand_blockLen : (s.finishCommand).blockLen = s.blockLen := rfl
@[simp] theorem State.finishCommand_flags : (s.finishCommand).flags = s.flags := rfl
@[simp] theorem State.finishCommand_msg : (s.finishCommand).msg = s.msg := rfl
@[simp] theorem State.finishCommand_chunkBuf : (s.finishCommand).chunkBuf = s.chunkBuf := rfl
@[simp] theorem State.finishCommand_faulted : (s.finishCommand).faulted = s.faulted := rfl
@[simp] theorem State.finishCommand_resetInput : (s.finishCommand).resetInput = s.resetInput := rfl
@[simp] theorem State.finishCommand_hostProgram : (s.finishCommand).hostProgram = s.hostProgram := rfl
@[simp] theorem State.finishCommand_hostVars : (s.finishCommand).hostVars = s.hostVars := rfl
@[simp] theorem State.finishCommand_hostFailed : (s.finishCommand).hostFailed = s.hostFailed := rfl
@[simp] theorem State.finishCommand_issued : (s.finishCommand).issued = s.issued := rfl
@[simp] theorem State.finishCommand_latencyLeft : (s.finishCommand).latencyLeft = s.latencyLeft := rfl

/-! ### countDown -/

@[simp] theorem State.countDown_lifecycle : (s.countDown).lifecycle = s.lifecycle := rfl
@[simp] theorem State.countDown_processedChunks : (s.countDown).processedChunks = s.processedChunks := rfl
@[simp] theorem State.countDown_stack : (s.countDown).stack = s.stack := rfl
@[simp] theorem State.countDown_digest : (s.countDown).digest = s.digest := rfl
@[simp] theorem State.countDown_out : (s.countDown).out = s.out := rfl
@[simp] theorem State.countDown_busy : (s.countDown).busy = s.busy := rfl
@[simp] theorem State.countDown_inflight : (s.countDown).inflight = s.inflight := rfl
@[simp] theorem State.countDown_err : (s.countDown).err = s.err := rfl
@[simp] theorem State.countDown_cvIn : (s.countDown).cvIn = s.cvIn := rfl
@[simp] theorem State.countDown_counterLo : (s.countDown).counterLo = s.counterLo := rfl
@[simp] theorem State.countDown_counterHi : (s.countDown).counterHi = s.counterHi := rfl
@[simp] theorem State.countDown_blockLen : (s.countDown).blockLen = s.blockLen := rfl
@[simp] theorem State.countDown_flags : (s.countDown).flags = s.flags := rfl
@[simp] theorem State.countDown_msg : (s.countDown).msg = s.msg := rfl
@[simp] theorem State.countDown_chunkBuf : (s.countDown).chunkBuf = s.chunkBuf := rfl
@[simp] theorem State.countDown_faulted : (s.countDown).faulted = s.faulted := rfl
@[simp] theorem State.countDown_resetInput : (s.countDown).resetInput = s.resetInput := rfl
@[simp] theorem State.countDown_hostProgram : (s.countDown).hostProgram = s.hostProgram := rfl
@[simp] theorem State.countDown_hostVars : (s.countDown).hostVars = s.hostVars := rfl
@[simp] theorem State.countDown_hostFailed : (s.countDown).hostFailed = s.hostFailed := rfl
@[simp] theorem State.countDown_issued : (s.countDown).issued = s.issued := rfl
@[simp] theorem State.countDown_latencyLeft : (s.countDown).latencyLeft = s.latencyLeft - 1 := rfl

/-! ### setOut -/

@[simp] theorem State.setOut_lifecycle (o : Block) : (s.setOut o).lifecycle = s.lifecycle := rfl
@[simp] theorem State.setOut_processedChunks (o : Block) : (s.setOut o).processedChunks = s.processedChunks := rfl
@[simp] theorem State.setOut_stack (o : Block) : (s.setOut o).stack = s.stack := rfl
@[simp] theorem State.setOut_digest (o : Block) : (s.setOut o).digest = s.digest := rfl
@[simp] theorem State.setOut_out (o : Block) : (s.setOut o).out = o := rfl
@[simp] theorem State.setOut_busy (o : Block) : (s.setOut o).busy = s.busy := rfl
@[simp] theorem State.setOut_inflight (o : Block) : (s.setOut o).inflight = s.inflight := rfl
@[simp] theorem State.setOut_err (o : Block) : (s.setOut o).err = s.err := rfl
@[simp] theorem State.setOut_cvIn (o : Block) : (s.setOut o).cvIn = s.cvIn := rfl
@[simp] theorem State.setOut_counterLo (o : Block) : (s.setOut o).counterLo = s.counterLo := rfl
@[simp] theorem State.setOut_counterHi (o : Block) : (s.setOut o).counterHi = s.counterHi := rfl
@[simp] theorem State.setOut_blockLen (o : Block) : (s.setOut o).blockLen = s.blockLen := rfl
@[simp] theorem State.setOut_flags (o : Block) : (s.setOut o).flags = s.flags := rfl
@[simp] theorem State.setOut_msg (o : Block) : (s.setOut o).msg = s.msg := rfl
@[simp] theorem State.setOut_chunkBuf (o : Block) : (s.setOut o).chunkBuf = s.chunkBuf := rfl
@[simp] theorem State.setOut_faulted (o : Block) : (s.setOut o).faulted = s.faulted := rfl
@[simp] theorem State.setOut_resetInput (o : Block) : (s.setOut o).resetInput = s.resetInput := rfl
@[simp] theorem State.setOut_hostProgram (o : Block) : (s.setOut o).hostProgram = s.hostProgram := rfl
@[simp] theorem State.setOut_hostVars (o : Block) : (s.setOut o).hostVars = s.hostVars := rfl
@[simp] theorem State.setOut_hostFailed (o : Block) : (s.setOut o).hostFailed = s.hostFailed := rfl
@[simp] theorem State.setOut_issued (o : Block) : (s.setOut o).issued = s.issued := rfl
@[simp] theorem State.setOut_latencyLeft (o : Block) : (s.setOut o).latencyLeft = s.latencyLeft := rfl

/-! ### setTree -/

@[simp] theorem State.setTree_lifecycle (st : List Node) (n : BitVec 64) : (s.setTree st n).lifecycle = s.lifecycle := rfl
@[simp] theorem State.setTree_processedChunks (st : List Node) (n : BitVec 64) : (s.setTree st n).processedChunks = n := rfl
@[simp] theorem State.setTree_stack (st : List Node) (n : BitVec 64) : (s.setTree st n).stack = st := rfl
@[simp] theorem State.setTree_digest (st : List Node) (n : BitVec 64) : (s.setTree st n).digest = s.digest := rfl
@[simp] theorem State.setTree_out (st : List Node) (n : BitVec 64) : (s.setTree st n).out = s.out := rfl
@[simp] theorem State.setTree_busy (st : List Node) (n : BitVec 64) : (s.setTree st n).busy = s.busy := rfl
@[simp] theorem State.setTree_inflight (st : List Node) (n : BitVec 64) : (s.setTree st n).inflight = s.inflight := rfl
@[simp] theorem State.setTree_err (st : List Node) (n : BitVec 64) : (s.setTree st n).err = s.err := rfl
@[simp] theorem State.setTree_cvIn (st : List Node) (n : BitVec 64) : (s.setTree st n).cvIn = s.cvIn := rfl
@[simp] theorem State.setTree_counterLo (st : List Node) (n : BitVec 64) : (s.setTree st n).counterLo = s.counterLo := rfl
@[simp] theorem State.setTree_counterHi (st : List Node) (n : BitVec 64) : (s.setTree st n).counterHi = s.counterHi := rfl
@[simp] theorem State.setTree_blockLen (st : List Node) (n : BitVec 64) : (s.setTree st n).blockLen = s.blockLen := rfl
@[simp] theorem State.setTree_flags (st : List Node) (n : BitVec 64) : (s.setTree st n).flags = s.flags := rfl
@[simp] theorem State.setTree_msg (st : List Node) (n : BitVec 64) : (s.setTree st n).msg = s.msg := rfl
@[simp] theorem State.setTree_chunkBuf (st : List Node) (n : BitVec 64) : (s.setTree st n).chunkBuf = s.chunkBuf := rfl
@[simp] theorem State.setTree_faulted (st : List Node) (n : BitVec 64) : (s.setTree st n).faulted = s.faulted := rfl
@[simp] theorem State.setTree_resetInput (st : List Node) (n : BitVec 64) : (s.setTree st n).resetInput = s.resetInput := rfl
@[simp] theorem State.setTree_hostProgram (st : List Node) (n : BitVec 64) : (s.setTree st n).hostProgram = s.hostProgram := rfl
@[simp] theorem State.setTree_hostVars (st : List Node) (n : BitVec 64) : (s.setTree st n).hostVars = s.hostVars := rfl
@[simp] theorem State.setTree_hostFailed (st : List Node) (n : BitVec 64) : (s.setTree st n).hostFailed = s.hostFailed := rfl
@[simp] theorem State.setTree_issued (st : List Node) (n : BitVec 64) : (s.setTree st n).issued = s.issued := rfl
@[simp] theorem State.setTree_latencyLeft (st : List Node) (n : BitVec 64) : (s.setTree st n).latencyLeft = s.latencyLeft := rfl

/-! ### setDigest -/

@[simp] theorem State.setDigest_lifecycle (d : Cv) : (s.setDigest d).lifecycle = s.lifecycle := rfl
@[simp] theorem State.setDigest_processedChunks (d : Cv) : (s.setDigest d).processedChunks = s.processedChunks := rfl
@[simp] theorem State.setDigest_stack (d : Cv) : (s.setDigest d).stack = s.stack := rfl
@[simp] theorem State.setDigest_digest (d : Cv) : (s.setDigest d).digest = d := rfl
@[simp] theorem State.setDigest_out (d : Cv) : (s.setDigest d).out = s.out := rfl
@[simp] theorem State.setDigest_busy (d : Cv) : (s.setDigest d).busy = s.busy := rfl
@[simp] theorem State.setDigest_inflight (d : Cv) : (s.setDigest d).inflight = s.inflight := rfl
@[simp] theorem State.setDigest_err (d : Cv) : (s.setDigest d).err = s.err := rfl
@[simp] theorem State.setDigest_cvIn (d : Cv) : (s.setDigest d).cvIn = s.cvIn := rfl
@[simp] theorem State.setDigest_counterLo (d : Cv) : (s.setDigest d).counterLo = s.counterLo := rfl
@[simp] theorem State.setDigest_counterHi (d : Cv) : (s.setDigest d).counterHi = s.counterHi := rfl
@[simp] theorem State.setDigest_blockLen (d : Cv) : (s.setDigest d).blockLen = s.blockLen := rfl
@[simp] theorem State.setDigest_flags (d : Cv) : (s.setDigest d).flags = s.flags := rfl
@[simp] theorem State.setDigest_msg (d : Cv) : (s.setDigest d).msg = s.msg := rfl
@[simp] theorem State.setDigest_chunkBuf (d : Cv) : (s.setDigest d).chunkBuf = s.chunkBuf := rfl
@[simp] theorem State.setDigest_faulted (d : Cv) : (s.setDigest d).faulted = s.faulted := rfl
@[simp] theorem State.setDigest_resetInput (d : Cv) : (s.setDigest d).resetInput = s.resetInput := rfl
@[simp] theorem State.setDigest_hostProgram (d : Cv) : (s.setDigest d).hostProgram = s.hostProgram := rfl
@[simp] theorem State.setDigest_hostVars (d : Cv) : (s.setDigest d).hostVars = s.hostVars := rfl
@[simp] theorem State.setDigest_hostFailed (d : Cv) : (s.setDigest d).hostFailed = s.hostFailed := rfl
@[simp] theorem State.setDigest_issued (d : Cv) : (s.setDigest d).issued = s.issued := rfl
@[simp] theorem State.setDigest_latencyLeft (d : Cv) : (s.setDigest d).latencyLeft = s.latencyLeft := rfl

/-! ### setLifecycle -/

@[simp] theorem State.setLifecycle_lifecycle (l : Lifecycle) : (s.setLifecycle l).lifecycle = l := rfl
@[simp] theorem State.setLifecycle_processedChunks (l : Lifecycle) : (s.setLifecycle l).processedChunks = s.processedChunks := rfl
@[simp] theorem State.setLifecycle_stack (l : Lifecycle) : (s.setLifecycle l).stack = s.stack := rfl
@[simp] theorem State.setLifecycle_digest (l : Lifecycle) : (s.setLifecycle l).digest = s.digest := rfl
@[simp] theorem State.setLifecycle_out (l : Lifecycle) : (s.setLifecycle l).out = s.out := rfl
@[simp] theorem State.setLifecycle_busy (l : Lifecycle) : (s.setLifecycle l).busy = s.busy := rfl
@[simp] theorem State.setLifecycle_inflight (l : Lifecycle) : (s.setLifecycle l).inflight = s.inflight := rfl
@[simp] theorem State.setLifecycle_err (l : Lifecycle) : (s.setLifecycle l).err = s.err := rfl
@[simp] theorem State.setLifecycle_cvIn (l : Lifecycle) : (s.setLifecycle l).cvIn = s.cvIn := rfl
@[simp] theorem State.setLifecycle_counterLo (l : Lifecycle) : (s.setLifecycle l).counterLo = s.counterLo := rfl
@[simp] theorem State.setLifecycle_counterHi (l : Lifecycle) : (s.setLifecycle l).counterHi = s.counterHi := rfl
@[simp] theorem State.setLifecycle_blockLen (l : Lifecycle) : (s.setLifecycle l).blockLen = s.blockLen := rfl
@[simp] theorem State.setLifecycle_flags (l : Lifecycle) : (s.setLifecycle l).flags = s.flags := rfl
@[simp] theorem State.setLifecycle_msg (l : Lifecycle) : (s.setLifecycle l).msg = s.msg := rfl
@[simp] theorem State.setLifecycle_chunkBuf (l : Lifecycle) : (s.setLifecycle l).chunkBuf = s.chunkBuf := rfl
@[simp] theorem State.setLifecycle_faulted (l : Lifecycle) : (s.setLifecycle l).faulted = s.faulted := rfl
@[simp] theorem State.setLifecycle_resetInput (l : Lifecycle) : (s.setLifecycle l).resetInput = s.resetInput := rfl
@[simp] theorem State.setLifecycle_hostProgram (l : Lifecycle) : (s.setLifecycle l).hostProgram = s.hostProgram := rfl
@[simp] theorem State.setLifecycle_hostVars (l : Lifecycle) : (s.setLifecycle l).hostVars = s.hostVars := rfl
@[simp] theorem State.setLifecycle_hostFailed (l : Lifecycle) : (s.setLifecycle l).hostFailed = s.hostFailed := rfl
@[simp] theorem State.setLifecycle_issued (l : Lifecycle) : (s.setLifecycle l).issued = s.issued := rfl
@[simp] theorem State.setLifecycle_latencyLeft (l : Lifecycle) : (s.setLifecycle l).latencyLeft = s.latencyLeft := rfl

/-! ### setProgram -/

@[simp] theorem State.setProgram_lifecycle (p : List HostOp) : (s.setProgram p).lifecycle = s.lifecycle := rfl
@[simp] theorem State.setProgram_processedChunks (p : List HostOp) : (s.setProgram p).processedChunks = s.processedChunks := rfl
@[simp] theorem State.setProgram_stack (p : List HostOp) : (s.setProgram p).stack = s.stack := rfl
@[simp] theorem State.setProgram_digest (p : List HostOp) : (s.setProgram p).digest = s.digest := rfl
@[simp] theorem State.setProgram_out (p : List HostOp) : (s.setProgram p).out = s.out := rfl
@[simp] theorem State.setProgram_busy (p : List HostOp) : (s.setProgram p).busy = s.busy := rfl
@[simp] theorem State.setProgram_inflight (p : List HostOp) : (s.setProgram p).inflight = s.inflight := rfl
@[simp] theorem State.setProgram_err (p : List HostOp) : (s.setProgram p).err = s.err := rfl
@[simp] theorem State.setProgram_cvIn (p : List HostOp) : (s.setProgram p).cvIn = s.cvIn := rfl
@[simp] theorem State.setProgram_counterLo (p : List HostOp) : (s.setProgram p).counterLo = s.counterLo := rfl
@[simp] theorem State.setProgram_counterHi (p : List HostOp) : (s.setProgram p).counterHi = s.counterHi := rfl
@[simp] theorem State.setProgram_blockLen (p : List HostOp) : (s.setProgram p).blockLen = s.blockLen := rfl
@[simp] theorem State.setProgram_flags (p : List HostOp) : (s.setProgram p).flags = s.flags := rfl
@[simp] theorem State.setProgram_msg (p : List HostOp) : (s.setProgram p).msg = s.msg := rfl
@[simp] theorem State.setProgram_chunkBuf (p : List HostOp) : (s.setProgram p).chunkBuf = s.chunkBuf := rfl
@[simp] theorem State.setProgram_faulted (p : List HostOp) : (s.setProgram p).faulted = s.faulted := rfl
@[simp] theorem State.setProgram_resetInput (p : List HostOp) : (s.setProgram p).resetInput = s.resetInput := rfl
@[simp] theorem State.setProgram_hostProgram (p : List HostOp) : (s.setProgram p).hostProgram = p := rfl
@[simp] theorem State.setProgram_hostVars (p : List HostOp) : (s.setProgram p).hostVars = s.hostVars := rfl
@[simp] theorem State.setProgram_hostFailed (p : List HostOp) : (s.setProgram p).hostFailed = s.hostFailed := rfl
@[simp] theorem State.setProgram_issued (p : List HostOp) : (s.setProgram p).issued = s.issued := rfl
@[simp] theorem State.setProgram_latencyLeft (p : List HostOp) : (s.setProgram p).latencyLeft = s.latencyLeft := rfl

/-! ### failHost -/

@[simp] theorem State.failHost_lifecycle : (s.failHost).lifecycle = s.lifecycle := rfl
@[simp] theorem State.failHost_processedChunks : (s.failHost).processedChunks = s.processedChunks := rfl
@[simp] theorem State.failHost_stack : (s.failHost).stack = s.stack := rfl
@[simp] theorem State.failHost_digest : (s.failHost).digest = s.digest := rfl
@[simp] theorem State.failHost_out : (s.failHost).out = s.out := rfl
@[simp] theorem State.failHost_busy : (s.failHost).busy = s.busy := rfl
@[simp] theorem State.failHost_inflight : (s.failHost).inflight = s.inflight := rfl
@[simp] theorem State.failHost_err : (s.failHost).err = s.err := rfl
@[simp] theorem State.failHost_cvIn : (s.failHost).cvIn = s.cvIn := rfl
@[simp] theorem State.failHost_counterLo : (s.failHost).counterLo = s.counterLo := rfl
@[simp] theorem State.failHost_counterHi : (s.failHost).counterHi = s.counterHi := rfl
@[simp] theorem State.failHost_blockLen : (s.failHost).blockLen = s.blockLen := rfl
@[simp] theorem State.failHost_flags : (s.failHost).flags = s.flags := rfl
@[simp] theorem State.failHost_msg : (s.failHost).msg = s.msg := rfl
@[simp] theorem State.failHost_chunkBuf : (s.failHost).chunkBuf = s.chunkBuf := rfl
@[simp] theorem State.failHost_faulted : (s.failHost).faulted = s.faulted := rfl
@[simp] theorem State.failHost_resetInput : (s.failHost).resetInput = s.resetInput := rfl
@[simp] theorem State.failHost_hostProgram : (s.failHost).hostProgram = [] := rfl
@[simp] theorem State.failHost_hostVars : (s.failHost).hostVars = s.hostVars := rfl
@[simp] theorem State.failHost_hostFailed : (s.failHost).hostFailed = true := rfl
@[simp] theorem State.failHost_issued : (s.failHost).issued = s.issued := rfl
@[simp] theorem State.failHost_latencyLeft : (s.failHost).latencyLeft = s.latencyLeft := rfl

/-! ### setVar -/

@[simp] theorem State.setVar_lifecycle (h : Nat) (v : Word) : (s.setVar h v).lifecycle = s.lifecycle := rfl
@[simp] theorem State.setVar_processedChunks (h : Nat) (v : Word) : (s.setVar h v).processedChunks = s.processedChunks := rfl
@[simp] theorem State.setVar_stack (h : Nat) (v : Word) : (s.setVar h v).stack = s.stack := rfl
@[simp] theorem State.setVar_digest (h : Nat) (v : Word) : (s.setVar h v).digest = s.digest := rfl
@[simp] theorem State.setVar_out (h : Nat) (v : Word) : (s.setVar h v).out = s.out := rfl
@[simp] theorem State.setVar_busy (h : Nat) (v : Word) : (s.setVar h v).busy = s.busy := rfl
@[simp] theorem State.setVar_inflight (h : Nat) (v : Word) : (s.setVar h v).inflight = s.inflight := rfl
@[simp] theorem State.setVar_err (h : Nat) (v : Word) : (s.setVar h v).err = s.err := rfl
@[simp] theorem State.setVar_cvIn (h : Nat) (v : Word) : (s.setVar h v).cvIn = s.cvIn := rfl
@[simp] theorem State.setVar_counterLo (h : Nat) (v : Word) : (s.setVar h v).counterLo = s.counterLo := rfl
@[simp] theorem State.setVar_counterHi (h : Nat) (v : Word) : (s.setVar h v).counterHi = s.counterHi := rfl
@[simp] theorem State.setVar_blockLen (h : Nat) (v : Word) : (s.setVar h v).blockLen = s.blockLen := rfl
@[simp] theorem State.setVar_flags (h : Nat) (v : Word) : (s.setVar h v).flags = s.flags := rfl
@[simp] theorem State.setVar_msg (h : Nat) (v : Word) : (s.setVar h v).msg = s.msg := rfl
@[simp] theorem State.setVar_chunkBuf (h : Nat) (v : Word) : (s.setVar h v).chunkBuf = s.chunkBuf := rfl
@[simp] theorem State.setVar_faulted (h : Nat) (v : Word) : (s.setVar h v).faulted = s.faulted := rfl
@[simp] theorem State.setVar_resetInput (h : Nat) (v : Word) : (s.setVar h v).resetInput = s.resetInput := rfl
@[simp] theorem State.setVar_hostProgram (h : Nat) (v : Word) : (s.setVar h v).hostProgram = s.hostProgram := rfl
@[simp] theorem State.setVar_hostVars (h : Nat) (v : Word) : (s.setVar h v).hostVars = assign h v s.hostVars := rfl
@[simp] theorem State.setVar_hostFailed (h : Nat) (v : Word) : (s.setVar h v).hostFailed = s.hostFailed := rfl
@[simp] theorem State.setVar_issued (h : Nat) (v : Word) : (s.setVar h v).issued = s.issued := rfl
@[simp] theorem State.setVar_latencyLeft (h : Nat) (v : Word) : (s.setVar h v).latencyLeft = s.latencyLeft := rfl

/-! ### hardwareReset -/

@[simp] theorem State.hardwareReset_lifecycle : s.hardwareReset.lifecycle = State.reset.lifecycle := rfl
@[simp] theorem State.hardwareReset_processedChunks : s.hardwareReset.processedChunks = State.reset.processedChunks := rfl
@[simp] theorem State.hardwareReset_stack : s.hardwareReset.stack = State.reset.stack := rfl
@[simp] theorem State.hardwareReset_digest : s.hardwareReset.digest = State.reset.digest := rfl
@[simp] theorem State.hardwareReset_out : s.hardwareReset.out = State.reset.out := rfl
@[simp] theorem State.hardwareReset_busy : s.hardwareReset.busy = State.reset.busy := rfl
@[simp] theorem State.hardwareReset_inflight : s.hardwareReset.inflight = State.reset.inflight := rfl
@[simp] theorem State.hardwareReset_err : s.hardwareReset.err = State.reset.err := rfl
@[simp] theorem State.hardwareReset_cvIn : s.hardwareReset.cvIn = State.reset.cvIn := rfl
@[simp] theorem State.hardwareReset_counterLo : s.hardwareReset.counterLo = State.reset.counterLo := rfl
@[simp] theorem State.hardwareReset_counterHi : s.hardwareReset.counterHi = State.reset.counterHi := rfl
@[simp] theorem State.hardwareReset_blockLen : s.hardwareReset.blockLen = State.reset.blockLen := rfl
@[simp] theorem State.hardwareReset_flags : s.hardwareReset.flags = State.reset.flags := rfl
@[simp] theorem State.hardwareReset_msg : s.hardwareReset.msg = State.reset.msg := rfl
@[simp] theorem State.hardwareReset_chunkBuf : s.hardwareReset.chunkBuf = State.reset.chunkBuf := rfl
@[simp] theorem State.hardwareReset_faulted : s.hardwareReset.faulted = s.faulted := rfl
@[simp] theorem State.hardwareReset_resetInput : s.hardwareReset.resetInput = State.reset.resetInput := rfl
@[simp] theorem State.hardwareReset_hostProgram : s.hardwareReset.hostProgram = s.hostProgram := rfl
@[simp] theorem State.hardwareReset_hostVars : s.hardwareReset.hostVars = s.hostVars := rfl
@[simp] theorem State.hardwareReset_hostFailed : s.hardwareReset.hostFailed = s.hostFailed := rfl
@[simp] theorem State.hardwareReset_issued : s.hardwareReset.issued = s.issued := rfl
@[simp] theorem State.hardwareReset_latencyLeft : s.hardwareReset.latencyLeft = State.reset.latencyLeft := rfl

/-! ### pushLeaf -/

@[simp] theorem State.pushLeaf_lifecycle (cv : Cv) : (s.pushLeaf cv).lifecycle = s.lifecycle := rfl
@[simp] theorem State.pushLeaf_processedChunks (cv : Cv) : (s.pushLeaf cv).processedChunks = s.processedChunks + 1 := rfl
@[simp] theorem State.pushLeaf_stack (cv : Cv) : (s.pushLeaf cv).stack = mergeReady (Node.mk cv 0 :: s.stack) := rfl
@[simp] theorem State.pushLeaf_digest (cv : Cv) : (s.pushLeaf cv).digest = s.digest := rfl
@[simp] theorem State.pushLeaf_out (cv : Cv) : (s.pushLeaf cv).out = s.out := rfl
@[simp] theorem State.pushLeaf_busy (cv : Cv) : (s.pushLeaf cv).busy = s.busy := rfl
@[simp] theorem State.pushLeaf_inflight (cv : Cv) : (s.pushLeaf cv).inflight = s.inflight := rfl
@[simp] theorem State.pushLeaf_err (cv : Cv) : (s.pushLeaf cv).err = s.err := rfl
@[simp] theorem State.pushLeaf_cvIn (cv : Cv) : (s.pushLeaf cv).cvIn = s.cvIn := rfl
@[simp] theorem State.pushLeaf_counterLo (cv : Cv) : (s.pushLeaf cv).counterLo = s.counterLo := rfl
@[simp] theorem State.pushLeaf_counterHi (cv : Cv) : (s.pushLeaf cv).counterHi = s.counterHi := rfl
@[simp] theorem State.pushLeaf_blockLen (cv : Cv) : (s.pushLeaf cv).blockLen = s.blockLen := rfl
@[simp] theorem State.pushLeaf_flags (cv : Cv) : (s.pushLeaf cv).flags = s.flags := rfl
@[simp] theorem State.pushLeaf_msg (cv : Cv) : (s.pushLeaf cv).msg = s.msg := rfl
@[simp] theorem State.pushLeaf_chunkBuf (cv : Cv) : (s.pushLeaf cv).chunkBuf = s.chunkBuf := rfl
@[simp] theorem State.pushLeaf_faulted (cv : Cv) : (s.pushLeaf cv).faulted = s.faulted := rfl
@[simp] theorem State.pushLeaf_resetInput (cv : Cv) : (s.pushLeaf cv).resetInput = s.resetInput := rfl
@[simp] theorem State.pushLeaf_hostProgram (cv : Cv) : (s.pushLeaf cv).hostProgram = s.hostProgram := rfl
@[simp] theorem State.pushLeaf_hostVars (cv : Cv) : (s.pushLeaf cv).hostVars = s.hostVars := rfl
@[simp] theorem State.pushLeaf_hostFailed (cv : Cv) : (s.pushLeaf cv).hostFailed = s.hostFailed := rfl
@[simp] theorem State.pushLeaf_issued (cv : Cv) : (s.pushLeaf cv).issued = s.issued := rfl
@[simp] theorem State.pushLeaf_latencyLeft (cv : Cv) : (s.pushLeaf cv).latencyLeft = s.latencyLeft := rfl

end Sys2Proof.Machine
end

