-- ==== Sys2Proof/Laws/Operands.lean ====
section
/-! SUPPORT. The operands of a command: when its cells are all written nothing is recorded and each operand
is what was written; otherwise UnwrittenOperand is recorded and nothing else changes. -/

namespace Sys2Proof.Machine

variable (s : State)

@[simp] theorem operandValue_some (off : Nat) (v : Word) : operandValue s off (some v) = v := rfl

@[simp] theorem operandValue_none (off : Nat) :
    operandValue s off none = Config.unwrittenValue s off := rfl

theorem cellsWritten_iff (cells : List (Option Word)) :
    cellsWritten cells = true ↔ ∀ c ∈ cells, c ≠ none := by
  simp [cellsWritten, Option.isSome_iff_ne_none]

theorem noteOperands_written {cells : List (Option Word)} (h : cellsWritten cells = true) :
    s.noteOperands cells = s := by
  simp [State.noteOperands, h]

theorem noteOperands_unwritten {cells : List (Option Word)} (h : cellsWritten cells = false) :
    s.noteOperands cells = s.recordFault .unwrittenOperand := by
  simp [State.noteOperands, h]

/-- All that looking at the operands can change. -/
theorem noteOperands_frame (cells : List (Option Word)) :
    s.noteOperands cells = { s with
      faulted := (s.noteOperands cells).faulted, hostProgram := (s.noteOperands cells).hostProgram } := by
  unfold State.noteOperands
  split <;> rfl

/-- Nothing recorded before or after: every operand was written. -/
theorem cellsWritten_of_noteOperands {cells : List (Option Word)}
    (h : (s.noteOperands cells).faulted = none) : cellsWritten cells = true := by
  by_contra hc
  rw [noteOperands_unwritten s (by simpa using hc)] at h
  cases h

theorem cvInValue_written {cv : Cv} (h : s.cvIn = cv.map some) : cvInValue s = cv := by
  ext i hi : 1
  simp [cvInValue, h]

theorem msgValue_written {m : Block} (h : s.msg = m.map some) : msgValue s = m := by
  ext i hi : 1
  simp [msgValue, h]

theorem chunkWords_written {ws : Vector Word 256} (h : s.chunkBuf = ws.map some) :
    chunkWords s = ws.toList := by
  apply List.ext_getElem <;> simp [chunkWords, h]

end Sys2Proof.Machine
end

