-- ==== Sys2Proof/Laws/Commands.lean ====
section
/-! SUPPORT. Everything each command can answer, said once: the error it raises and when, and the state it
leaves. -/

namespace Sys2Proof.Machine

/-- Everything COMPRESS can do: INPUT_ERROR, its operands being written, or its effect. -/
theorem execCompress_cases (s : State) :
    (cellsWritten (compressCells s) = true
        ∧ (Config.blockBytes < (blockLenValue s).toNat ∨ flagsLegal (flagsValue s) = false)
        ∧ execCompress s = .next (s.raiseErr .inputError))
      ∨ ((cellsWritten (compressCells s) = false
            ∨ ((blockLenValue s).toNat ≤ Config.blockBytes ∧ flagsLegal (flagsValue s) = true))
          ∧ execCompress s
            = .next ((s.noteOperands (compressCells s)).setOut (compressOutput s)).succeed) := by
  unfold execCompress
  simp only
  split
  · next hw => exact .inr ⟨.inl hw, rfl⟩
  · next hw =>
    have hw : cellsWritten (compressCells s) = true := by simpa using hw
    split
    · next hb => exact .inl ⟨hw, .inl hb, rfl⟩
    · next hb =>
      split
      · next hf => exact .inl ⟨hw, .inr hf, rfl⟩
      · next hf => exact .inr ⟨.inr ⟨by omega, by simpa using hf⟩, rfl⟩

/-- Everything PUSH_CHUNK can do: one of its errors, in order, or its effect. -/
theorem execPushChunk_cases (s : State) :
    (∃ c, c ≠ .ok ∧ execPushChunk s = .next (s.raiseErr c)
        ∧ ((c = .protocolMisuse ∧ s.lifecycle = .finalized)
          ∨ (c = .counterOverflow ∧ s.lifecycle ≠ .finalized ∧ s.processedChunks.toNat = 2 ^ 64 - 1)
          ∨ (c = .stackOverflow ∧ s.lifecycle ≠ .finalized ∧ s.processedChunks.toNat ≠ 2 ^ 64 - 1
              ∧ s.stack.length = Config.stackDepth)))
      ∨ (s.lifecycle ≠ .finalized ∧ s.processedChunks.toNat ≠ 2 ^ 64 - 1
          ∧ s.stack.length ≠ Config.stackDepth
          ∧ execPushChunk s
            = .next (((s.noteOperands (chunkCells s Config.chunkBytes)).pushLeaf
                (chunkCv (chunkBytes s Config.chunkBytes) s.processedChunks false)).setLifecycle
                  .accepting).succeed) := by
  unfold execPushChunk
  split
  · next h => exact .inl ⟨_, by simp, rfl, .inl ⟨rfl, h⟩⟩
  · next h1 =>
    split
    · next h => exact .inl ⟨_, by simp, rfl, .inr (.inl ⟨rfl, h1, h⟩)⟩
    · next h2 =>
      split
      · next h => exact .inl ⟨_, by simp, rfl, .inr (.inr ⟨rfl, h1, h2, h⟩)⟩
      · next h3 => exact .inr ⟨h1, h2, h3, rfl⟩

/-- Everything FINALIZE can do: one of its errors, in order, or its effect. -/
theorem execFinalize_cases (len : BitVec 11) (s : State) :
    (∃ c, c ≠ .ok ∧ execFinalize len s = .next (s.raiseErr c)
        ∧ ((c = .protocolMisuse ∧ s.lifecycle = .finalized)
          ∨ (c = .inputError ∧ s.lifecycle ≠ .finalized ∧ Config.chunkBytes < len.toNat)
          ∨ (c = .stackOverflow ∧ s.lifecycle ≠ .finalized ∧ len.toNat ≤ Config.chunkBytes
              ∧ s.stack.length = Config.stackDepth)))
      ∨ (s.lifecycle ≠ .finalized ∧ len.toNat ≤ Config.chunkBytes
          ∧ s.stack.length ≠ Config.stackDepth
          ∧ execFinalize len s
            = .next ((((s.noteOperands (chunkCells s len.toNat)).setTree [rootNode s len.toNat]
                s.processedChunks).setDigest (rootNode s len.toNat).cv).setLifecycle
                  .finalized).succeed) := by
  unfold execFinalize
  split
  · next h => exact .inl ⟨_, by simp, rfl, .inl ⟨rfl, h⟩⟩
  · next h1 =>
    split
    · next h => exact .inl ⟨_, by simp, rfl, .inr (.inl ⟨rfl, h1, h⟩)⟩
    · next h2 =>
      split
      · next h => exact .inl ⟨_, by simp, rfl, .inr (.inr ⟨rfl, h1, by omega, h⟩)⟩
      · next h3 => exact .inr ⟨h1, by omega, h3, rfl⟩

end Sys2Proof.Machine
end

