-- ==== Sys2Proof/Laws/Host.lean ====
section
/-! SUPPORT. The host's variables: an assignment keeps the one form a set of variables has, reads back,
and leaves the other variables alone. -/

namespace Sys2Proof.Machine

@[simp] theorem varsSorted_nil : varsSorted [] = true := rfl

@[simp] theorem varsSorted_single (p : Nat × Word) : varsSorted [p] = true := by
  cases p; rfl

theorem varsSorted_cons_cons (p q : Nat × Word) (l : List (Nat × Word)) :
    varsSorted (p :: q :: l) = true ↔ p.1 < q.1 ∧ varsSorted (q :: l) = true := by
  simp [varsSorted]

theorem varsSorted_tail {p : Nat × Word} {l : List (Nat × Word)} (h : varsSorted (p :: l) = true) :
    varsSorted l = true := by
  cases l with
  | nil => rfl
  | cons q l => exact ((varsSorted_cons_cons p q l).mp h).2

/-- The first variable after an assignment is the one assigned or the one that was first. -/
theorem assign_head (h : Nat) (v : Word) (l : List (Nat × Word)) :
    ∃ q rest, assign h v l = q :: rest ∧ (q.1 = h ∨ ∃ p tail, l = p :: tail ∧ q.1 = p.1) := by
  cases l with
  | nil => exact ⟨(h, v), [], rfl, .inl rfl⟩
  | cons p tail =>
    obtain ⟨k, x⟩ := p
    simp only [assign]
    split
    · exact ⟨_, _, rfl, .inl rfl⟩
    · split
      · exact ⟨_, _, rfl, .inl rfl⟩
      · exact ⟨_, _, rfl, .inr ⟨_, _, rfl, rfl⟩⟩

theorem assign_sorted (h : Nat) (v : Word) (l : List (Nat × Word)) (hl : varsSorted l = true) :
    varsSorted (assign h v l) = true := by
  induction l with
  | nil => rfl
  | cons p tail ih =>
    obtain ⟨k, x⟩ := p
    simp only [assign]
    split
    · next hlt => exact (varsSorted_cons_cons _ _ _).mpr ⟨hlt, hl⟩
    · split
      · next heq =>
        subst heq
        cases tail with
        | nil => rfl
        | cons q tail =>
          exact (varsSorted_cons_cons _ _ _).mpr ((varsSorted_cons_cons _ _ _).mp hl)
      · next hlt hne =>
        obtain ⟨q, rest, hq, hhead⟩ := assign_head h v tail
        have hs := ih (varsSorted_tail hl)
        rw [hq] at hs ⊢
        refine (varsSorted_cons_cons _ _ _).mpr ⟨?_, hs⟩
        rcases hhead with hh | ⟨p', tail', rfl, hp⟩
        · simp only [hh]; omega
        · rw [hp]; exact ((varsSorted_cons_cons _ _ _).mp hl).1

@[simp] theorem lookup_assign_self (h : Nat) (v : Word) (l : List (Nat × Word)) :
    lookup h (assign h v l) = some v := by
  induction l with
  | nil => simp [assign, lookup]
  | cons p tail ih =>
    obtain ⟨k, x⟩ := p
    simp only [assign]
    split
    · simp [lookup]
    · split
      · simp [lookup]
      · next hne => simp [lookup, hne, ih]

theorem lookup_assign_other {h k : Nat} (hne : h ≠ k) (v : Word) (l : List (Nat × Word)) :
    lookup k (assign h v l) = lookup k l := by
  induction l with
  | nil => simp [assign, lookup, Ne.symm hne]
  | cons p tail ih =>
    obtain ⟨j, x⟩ := p
    simp only [assign]
    split
    · simp [lookup, Ne.symm hne]
    · split
      · next heq => subst heq; simp [lookup, Ne.symm hne]
      · simp [lookup, ih]

end Sys2Proof.Machine
end

