-- ==== Sys2Proof/Laws/PerInstr.lean ====
section
/-! SUPPORT. Facts about every command as syntax, one lemma per constructor. -/

/-- Family ReservedZero: the reserved fields of the command's word are zero, as R70 demands. -/
def Sys2Proof.Laws.ReservedZero.Statement (i : Sys2Proof.Instr) : Prop :=
  Sys2Proof.rsv0Field (Sys2Proof.encode i) = 0 ∧ Sys2Proof.rsv1Field (Sys2Proof.encode i) = 0

theorem Sys2Proof.Laws.ReservedZero.reset : Statement .reset := by
  constructor <;> decide

theorem Sys2Proof.Laws.ReservedZero.compress : Statement .compress := by
  constructor <;> decide

theorem Sys2Proof.Laws.ReservedZero.pushChunk : Statement .pushChunk := by
  constructor <;> decide

theorem Sys2Proof.Laws.ReservedZero.finalize (len : BitVec 11) : Statement (.finalize len) := by
  constructor <;> ext i hi <;>
    simp [encode, commandWord, rsv0Field, rsv1Field] <;> interval_cases i <;> simp
end

