-- ==== Sys2Proof/Laws/Registers.lean ====
section
/-! SUPPORT. What a register access can do: an access that is not refused was legal, a read returns the
register's value, and a write issues a command or stores a cell. -/

namespace Sys2Proof.Machine

theorem mem_allRegs (r : Reg) : r ∈ allRegs := by
  cases r <;> simp [allRegs]

/-- What `regAt` finds has the offset it was asked for. -/
theorem regOffset_of_regAt {off : Nat} {r : Reg} (h : regAt off = some r) : regOffset r = off := by
  simpa using List.find?_some h

/-- An access that is not refused is a 32-bit access of a register that allows it, and while BUSY = 1 it
is a read of STATUS. -/
theorem access_ok {s : State} {d : Dir} {off width : Nat} {r : Reg}
    (h : access s d off width = .ok r) :
    width = 32 ∧ regAt off = some r ∧ allows d r = true
      ∧ (s.busy = true → d = .read ∧ r = .status) := by
  unfold access at h
  split at h
  · cases h
  · next hw =>
    split at h
    · cases h
    · next r' hr =>
      split at h
      · cases h
      · next ha =>
        split at h
        · cases h
        · next hb =>
          cases h
          refine ⟨by omega, hr, by simpa using ha, fun hbusy => ?_⟩
          by_contra hc
          exact hb ⟨hbusy, by tauto⟩

/-- A refused access is refused with a bus error. -/
theorem access_error {s : State} {d : Dir} {off width : Nat} {f : Fault}
    (h : access s d off width = .error f) : f = .busError := by
  unfold access at h
  split at h
  · cases h; rfl
  · split at h
    · cases h; rfl
    · split at h
      · cases h; rfl
      · split at h <;> cases h; rfl

/-- A refused read is refused with a bus error. -/
theorem regRead_error {s : State} {off width : Nat} {f : Fault} (h : regRead s off width = .error f) :
    f = .busError := by
  unfold regRead at h
  split at h
  · next g hg => cases h; exact access_error hg
  · next r _ =>
    cases r <;> cases h
    all_goals rfl

/-- A refused write is refused with a bus error. -/
theorem regWrite_error {s : State} {off width : Nat} {v : Word} {f : Fault}
    (h : regWrite s off width v = .error f) : f = .busError := by
  unfold regWrite at h
  split at h
  · next g hg => cases h; exact access_error hg
  · next r _ =>
    cases r <;> cases h
    all_goals rfl

theorem regRead_ok {s : State} {off width : Nat} {v : Word} (h : regRead s off width = .ok v) :
    ∃ r, access s .read off width = .ok r ∧ readReg s r = .ok v := by
  unfold regRead at h
  split at h
  · cases h
  · next r hr => exact ⟨r, hr, h⟩

theorem regWrite_ok {s t : State} {off width : Nat} {v : Word} (h : regWrite s off width v = .ok t) :
    ∃ r, access s .write off width = .ok r ∧ writeReg s v r = .ok t := by
  unfold regWrite at h
  split at h
  · cases h
  · next r hr => exact ⟨r, hr, h⟩

/-- Everything a write of a register can do: issue a command, or store one cell. -/
theorem writeReg_ok {s t : State} {v : Word} {r : Reg} (h : writeReg s v r = .ok t) :
    (r = .cmd ∧ t = s.issue v)
      ∨ (∃ i, r = .cvIn i ∧ t = { s with cvIn := s.cvIn.set i (some v) })
      ∨ (r = .counterLo ∧ t = { s with counterLo := some v })
      ∨ (r = .counterHi ∧ t = { s with counterHi := some v })
      ∨ (r = .blockLen ∧ t = { s with blockLen := some v })
      ∨ (r = .flags ∧ t = { s with flags := some v })
      ∨ (∃ i, r = .msg i ∧ t = { s with msg := s.msg.set i (some v) })
      ∨ (∃ k, r = .chunkBuf k ∧ t = { s with chunkBuf := s.chunkBuf.set k (some v) }) := by
  cases r <;> simp only [writeReg] at h <;> cases h <;> simp

/-- A write leaves the tree, the results, the status but BUSY, the fault and the host alone. -/
theorem writeReg_frame {s t : State} {v : Word} {r : Reg} (h : writeReg s v r = .ok t) :
    t.lifecycle = s.lifecycle ∧ t.processedChunks = s.processedChunks ∧ t.stack = s.stack
      ∧ t.digest = s.digest ∧ t.out = s.out ∧ t.err = s.err ∧ t.faulted = s.faulted
      ∧ t.resetInput = s.resetInput ∧ t.hostProgram = s.hostProgram ∧ t.hostVars = s.hostVars
      ∧ t.hostFailed = s.hostFailed := by
  rcases writeReg_ok h with ⟨-, rfl⟩ | ⟨i, -, rfl⟩ | ⟨-, rfl⟩ | ⟨-, rfl⟩ | ⟨-, rfl⟩ | ⟨-, rfl⟩
    | ⟨i, -, rfl⟩ | ⟨k, -, rfl⟩ <;> simp [State.issue]

/-- All that recording a read can change. -/
theorem noteRead_frame (s : State) (off : Nat) :
    s.noteRead off = { s with
      faulted := (s.noteRead off).faulted, hostProgram := (s.noteRead off).hostProgram } := by
  unfold State.noteRead
  split <;> rfl

theorem noteRead_unwritten {s : State} {off : Nat} (h : unwrittenAt s off = true) :
    s.noteRead off = s.recordFault .unwrittenRead := by
  simp [State.noteRead, h]

@[simp] theorem noteRead_written {s : State} {off : Nat} (h : unwrittenAt s off = false) :
    s.noteRead off = s := by
  simp [State.noteRead, h]

@[simp] theorem readReg_status (s : State) : readReg s .status = .ok (statusWord s) := rfl

@[simp] theorem regAt_status : regAt (regOffset .status) = some .status := rfl

/-- STATUS can be read in every state. -/
@[simp] theorem regRead_status (s : State) : regRead s (regOffset .status) 32 = .ok (statusWord s) := by
  simp [regRead, access, allows]

/-- Bit 0 of STATUS is BUSY (R32). -/
@[simp] theorem statusWord_busy (s : State) : (statusWord s).getLsbD 0 = s.busy := by
  simp [statusWord]

/-- Bits 7:4 of STATUS are the code in ERR (R32). -/
@[simp] theorem statusWord_err (s : State) : (statusWord s).extractLsb' 4 4 = errBits s.err := by
  cases he : s.err <;> cases hb : s.busy <;> cases hl : s.lifecycle <;>
    simp [statusWord, errBits, lifecycleBits, he, hb, hl]

end Sys2Proof.Machine
end

