-- ==== Sys2Proof/Laws/Run.lean ====
section
/-! SUPPORT. Runs of the machine, one step at a time. -/

namespace Sys2Proof.Machine

/-- A run of a machine is its first step and the run from there. -/
theorem run_succ (M : Host.Core) (n : Nat) (s : M.State) :
    M.run (n + 1) s
      = (match M.step s with
        | .next t => M.run n t
        | .fault f => .fault f
        | .refused r => .refused r) := rfl

theorem run_next (M : Host.Core) (n : Nat) {s t : M.State} (h : M.step s = .next t) :
    M.run (n + 1) s = M.run n t := by
  rw [run_succ, h]

theorem core_run_zero (s : State) : core.run 0 s = .next s := rfl

theorem core_run_next (n : Nat) {s t : State} (h : step s = .next t) :
    core.run (n + 1) s = core.run n t := run_next core n h

end Sys2Proof.Machine
end

