-- ==== Sys2Proof/Laws/Step.lean ====
section
/-! SUPPORT. Everything a step can do, said once for the step, for the choice of the agent, for one host
operation and for a completion. -/

namespace Sys2Proof.Machine

/-! ### Whose step it is -/

/-- With nothing in flight the step is the host's turn. -/
theorem step_eq_hostTurn {s : State} (hr : s.resetInput = false) (hb : s.busy = false) :
    step s = hostTurn s := by
  simp [step, oneStep, turn, hr, hb]

/-- While the latency of the command in flight runs, the step is the host's turn, one turn less being left. -/
theorem step_eq_hostTurn_busy {s : State} (hr : s.resetInput = false) (hb : s.busy = true)
    (hl : s.latencyLeft ≠ 0) : step s = hostTurn s.countDown := by
  simp [step, oneStep, turn, hr, hb, hl]

/-- When the latency is over and the tree is sound, the step is the completion. -/
theorem step_eq_completeCommand {s : State} (hr : s.resetInput = false) (hb : s.busy = true)
    (hl : s.latencyLeft = 0) (ht : treeOk s = true) : step s = completeCommand s := by
  simp [step, oneStep, turn, engineTurn, hr, hb, hl, ht]

/-! ### What it can do -/

/-- Everything a step that answers a next state has done. -/
theorem step_next {s t : State} (h : step s = .next t) :
    (s.resetInput = true ∧ t = s.hardwareReset) ∨ (s.resetInput = false ∧ turn s = .next t) := by
  unfold step oneStep at h
  split at h
  · next hr => cases h; exact .inl ⟨hr, rfl⟩
  · next hr => exact .inr ⟨by simpa using hr, h⟩

/-- Everything a turn that answers a next state has done. -/
theorem turn_next {s t : State} (h : turn s = .next t) :
    (s.busy = true ∧ s.latencyLeft = 0 ∧ treeOk s = true ∧ completeCommand s = .next t)
      ∨ (s.busy = true ∧ s.latencyLeft = 0 ∧ treeOk s = false
          ∧ t = s.recordFault .invariantViolation)
      ∨ (s.busy = true ∧ s.latencyLeft ≠ 0 ∧ hostTurn s.countDown = .next t)
      ∨ (s.busy = false ∧ hostTurn s = .next t) := by
  unfold turn at h
  split at h
  · next hb =>
    split at h
    · next hl =>
      unfold engineTurn at h
      split at h
      · next hok => exact .inl ⟨hb, hl, hok, h⟩
      · next hok => cases h; exact .inr (.inl ⟨hb, hl, by simpa using hok, rfl⟩)
    · next hl => exact .inr (.inr (.inl ⟨hb, hl, h⟩))
  · next hb => exact .inr (.inr (.inr ⟨by simpa using hb, h⟩))

/-- Everything a completion that answers a next state has done. -/
theorem completeCommand_next {s t : State} (h : completeCommand s = .next t) :
    (∃ e, decode s.inflight = .error e ∧ t = (s.raiseErr .illegalCommand).finishCommand)
      ∨ (∃ i u, decode s.inflight = .ok i ∧ exec i s = .next u ∧ t = u.finishCommand) := by
  unfold completeCommand at h
  split at h
  · next e he => cases h; exact .inl ⟨e, he, rfl⟩
  · next i hi =>
    split at h
    · next u hu => cases h; exact .inr ⟨i, u, hi, hu, rfl⟩
    · cases h
    · cases h

/-- Everything a host operation that answers a next state has done. -/
theorem hostOp_next {s t : State} {op : HostOp} {rest : List HostOp} (h : hostOp s op rest = .next t) :
    (∃ off width v u, op = .wr off width v ∧ regWrite s off width v = .ok u ∧ t = u.setProgram rest)
      ∨ (∃ n off width v, op = .rd n off width ∧ regRead s off width = .ok v
          ∧ t = ((s.setVar n v).setProgram rest).noteRead off)
      ∨ (((∃ off width v, op = .wr off width v ∧ regWrite s off width v = .error .busError)
            ∨ ∃ n off width, op = .rd n off width ∧ regRead s off width = .error .busError)
          ∧ t = s.recordFault .busError)
      ∨ (op = .wait
          ∧ t = (s.setVar statusVar (statusWord s)).setProgram
              (if s.busy then .wait :: rest else rest))
      ∨ (op = .chkOk
          ∧ (t = (s.setVar statusVar (statusWord s)).setProgram rest
            ∨ t = (s.setVar statusVar (statusWord s)).failHost))
      ∨ (op = .hwReset ∧ t = s.assertReset.setProgram rest) := by
  cases op with
  | wr off width v =>
    simp only [hostOp] at h
    split at h
    · next f hf =>
      cases h
      obtain rfl := regWrite_error hf
      exact .inr (.inr (.inl ⟨.inl ⟨off, width, v, rfl, hf⟩, rfl⟩))
    · next u hu => cases h; exact .inl ⟨off, width, v, u, rfl, hu, rfl⟩
  | rd n off width =>
    simp only [hostOp] at h
    split at h
    · next f hf =>
      cases h
      obtain rfl := regRead_error hf
      exact .inr (.inr (.inl ⟨.inr ⟨n, off, width, rfl, hf⟩, rfl⟩))
    · next v hv => cases h; exact .inr (.inl ⟨n, off, width, v, rfl, hv, rfl⟩)
  | wait =>
    simp only [hostOp, regRead_status, statusWord_busy] at h
    cases h
    exact .inr (.inr (.inr (.inl ⟨rfl, rfl⟩)))
  | chkOk =>
    simp only [hostOp, regRead_status] at h
    refine .inr (.inr (.inr (.inr (.inl ⟨rfl, ?_⟩))))
    split at h <;> cases h
    · exact .inl rfl
    · exact .inr rfl
  | hwReset =>
    simp only [hostOp] at h
    cases h
    exact .inr (.inr (.inr (.inr (.inr ⟨rfl, rfl⟩))))

/-- A host turn with nothing left to do changes nothing. -/
@[simp] theorem hostTurn_idle {s : State} (h : s.hostProgram = []) : hostTurn s = .next s := by
  simp [hostTurn, h]

theorem hostTurn_cons {s : State} {op : HostOp} {rest : List HostOp} (h : s.hostProgram = op :: rest) :
    hostTurn s = hostOp s op rest := by
  simp [hostTurn, h]

end Sys2Proof.Machine
end

