-- ==== Sys2Proof/Laws/Tree.lean ====
section
/-! SUPPORT. The pending stack: what merging and draining leave, and the positions of the 1 bits of the
counter. -/

namespace Sys2Proof.Machine

@[simp] theorem mergeOnto_nil (top : Node) : mergeOnto top [] = [top] := rfl

theorem mergeOnto_merges {top left : Node} (h : left.level = top.level) (below : List Node) :
    mergeOnto top (left :: below) = mergeOnto (mergeNodes left top (parentFlags false)) below := by
  simp [mergeOnto, h]

theorem mergeOnto_keeps {top left : Node} (h : left.level ≠ top.level) (below : List Node) :
    mergeOnto top (left :: below) = top :: left :: below := by
  simp [mergeOnto, h]

/-- A merge pass leaves at least one entry and adds none. -/
theorem mergeOnto_length (top : Node) (rest : List Node) :
    0 < (mergeOnto top rest).length ∧ (mergeOnto top rest).length ≤ rest.length + 1 := by
  induction rest generalizing top with
  | nil => simp
  | cons left below ih =>
    by_cases h : left.level = top.level
    · rw [mergeOnto_merges h]
      have := ih (mergeNodes left top (parentFlags false))
      simp only [List.length_cons]
      omega
    · simp [mergeOnto_keeps h]

@[simp] theorem drainOnto_nil (right : Node) : drainOnto right [] = right := rfl

@[simp] theorem drainOnto_cons (right left : Node) (below : List Node) :
    drainOnto right (left :: below)
      = drainOnto (mergeNodes left right (parentFlags below.isEmpty)) below := rfl

theorem mem_onePositions {n : BitVec 64} {k : Nat} :
    k ∈ onePositions n ↔ k < 64 ∧ n.getLsbD k = true := by
  simp [onePositions]

theorem onePositions_zero : onePositions 0 = [] := by
  simp [onePositions]

/-- The positions rise, so on a sound stack the levels fall from bottom to top (R24). -/
theorem onePositions_rise (n : BitVec 64) : (onePositions n).Pairwise (· < ·) :=
  List.Pairwise.filter _ List.pairwise_lt_range

end Sys2Proof.Machine
end

