-- ==== Sys2Proof/Tests/Slice0.lean ====
section
/-! SUPPORT. The model's own tests: expected values from spec/95_test_vectors.md and the rules' worked
examples, and for each statement with hypotheses a state and operands that meet them. -/

namespace Sys2Proof.Machine.Tests

open Sys2Proof Sys2Proof.Machine

/- One test after the other: the tests evaluated by the kernel would otherwise all wait at once. -/
set_option Elab.async false

/-! ### Helpers -/

/-- The outcome is a next state with the property. -/
def nextIs (p : State → Bool) : Host.Outcome State Fault Refusal → Bool
  | .next t => p t
  | .fault _ => false
  | .refused _ => false

theorem exists_next {o : Host.Outcome State Fault Refusal} {p : State → Bool} (h : nextIs p o = true) :
    ∃ t, o = .next t ∧ p t = true := by
  cases o with
  | next t => exact ⟨t, rfl, h⟩
  | fault f => cases h
  | refused r => cases h

/-- Every operand cell written: the operands of vector C-1 and a chunk buffer of zeros. -/
def loaded : State :=
  { State.reset with
    cvIn := #v[some 0x6A09E667, some 0xBB67AE85, some 0x3C6EF372, some 0xA54FF53A,
      some 0x510E527F, some 0x9B05688C, some 0x1F83D9AB, some 0x5BE0CD19]
    counterLo := some 0, counterHi := some 0, blockLen := some 0, flags := some 0x0B
    msg := Vector.replicate 16 (some 0)
    chunkBuf := Vector.replicate 256 (some 0) }

/-- `s` with the command word `w` in flight and due. -/
def due (s : State) (w : Nat) : State := s.withFetchWord 32 w

/-- `s` with one host operation to do, and another after it. -/
def doing (s : State) (op : HostOp) : State := { s with hostProgram := [op, .wait] }

/-- `s` with a command in flight and two host turns before it completes. -/
def waiting (s : State) : State := { s with busy := true, inflight := 0x1, latencyLeft := 2 }

/-- A finalized block. -/
def finalized : State :=
  { loaded with
    lifecycle := .finalized, stack := [{ cv := Vector.replicate 8 7, level := 0 }]
    digest := Vector.replicate 8 7 }

/-- A block that has taken one chunk. -/
def accepting : State :=
  { loaded with
    lifecycle := .accepting, processedChunks := 1, stack := [{ cv := Vector.replicate 8 7, level := 0 }] }

/-- A block whose counter stands at its limit, with a node for each of its 64 bits. -/
def atLimit : State :=
  { loaded with
    lifecycle := .accepting, processedChunks := BitVec.allOnes 64
    stack := (List.range 64).map fun k => { cv := Vector.replicate 8 7, level := BitVec.ofNat 7 k } }

/-- A block with a full stack, which no run reaches. -/
def fullStack : State :=
  { loaded with stack := List.replicate 65 { cv := Vector.replicate 8 7, level := 0 } }

/-! ### Well-formedness: the one check refuses, at its boundary (R72) -/

theorem test_wellFormed_accepts_1024 : (Instr.finalize 1024).wellFormed = true := by decide

theorem test_wellFormed_refuses_1025 : (Instr.finalize 1025).wellFormed = false := by decide

/-! ### Decoding: words written out bit by bit from R70's pattern -/

theorem test_decode_reset : decode 0b00000000000000000000000000000001 = .ok .reset := by decide

theorem test_decode_compress : decode 0b00000000000000000000000000000010 = .ok .compress := by decide

theorem test_decode_pushChunk : decode 0b00000000000000000000000000000011 = .ok .pushChunk := by decide

theorem test_decode_finalize_1024 :
    decode 0b00000000000001000000000000000100 = .ok (.finalize 1024) := by decide

theorem test_decode_finalize_all_len_bits :
    decode 0b00000000000001111111111100000100 = .ok (.finalize 2047) := by decide

/-- The illegal words of 95_test_vectors.md sections 2.5 and 2.6. -/
theorem test_decode_illegal :
    decode 0x00000000 = .error .reservedOp ∧ decode 0x00000005 = .error .reservedOp
      ∧ decode 0x0000000F = .error .reservedOp ∧ decode 0x00000014 = .error .reservedBits
      ∧ decode 0x00000101 = .error .lenNotZero ∧ decode 0x00000102 = .error .lenNotZero
      ∧ decode 0x00080004 = .error .reservedBits ∧ decode 0x80000004 = .error .reservedBits := by decide

theorem test_decodeTableWord : decodeTableWord 32 0x00000304 = some (.finalize 3) := by decide

/-! ### The functions (95_test_vectors.md sections 2.1 to 2.4) -/

theorem test_rotr : rotr 0x12345678 7 = 0xF02468AC := by decide

theorem test_g_abc :
    g 0x6A09E667 0x510E527F 0x6A09E667 0 0x00636261 0
      = (0xF550E146, 0x86F6D5F9, 0x42BFB93C, 0x3D6E175A) := by decide

theorem test_g_wraps :
    g 0xFFFFFFFF 0x00000001 0xFFFFFFFF 0xFFFFFFFF 0xFFFFFFFF 0xFFFFFFFF
      = (0xFFEFFFFD, 0x02042020, 0xFDFFEFFE, 0xFDFFEFFF) := by decide

/-- Vector C-3, first round. -/
theorem test_round_abc :
    round (initVector iv 0 3 0x0B) #v[0x00636261, 0, 0, 0, 0, 0, 0, 0, 0, 0, 0, 0, 0, 0, 0, 0]
      = #v[0xDB143866, 0x950EAEA4, 0xB01BB383, 0x8A76B87B, 0x0E26C52C, 0x0A0CCDEF, 0x19283993, 0xA4E212BE,
           0x906C3EC2, 0x5879CDBB, 0x8B4A7EF9, 0x8186F2F7, 0xBEF17DEC, 0x3CA110C7, 0x252CBC73,
           0xFB497983] := by decide +kernel

/-- Vector C-4: a counter with a non-zero high word, and a block whose words all differ. -/
theorem test_compress_counter_high :
    compressBlock #v[0, 1, 2, 3, 4, 5, 6, 7, 8, 9, 10, 11, 12, 13, 14, 15] iv 0x0000000100000002 64 0x14
      = #v[0x5F3C0133, 0xD5D690E2, 0x2238E10A, 0x065EBF63, 0x2930F4E4, 0x6741C724, 0xFD0ADE67, 0xB52C1847,
           0xE4090FFB, 0x47774A80, 0xC7B9A6C9, 0x4118A8D4, 0x4D0BD2CF, 0x68F6B1D5, 0x3CAA5BC1,
           0x2B11DF07] := by decide +kernel

/-- `chunk_cv` of the first 65 bytes of the pattern, index 1: two blocks, the second of one byte. -/
theorem test_chunkCv_65 :
    chunkCv ((List.range 65).map fun i => BitVec.ofNat 8 i) 1 false
      = #v[0x77204A5E, 0xE8E2BEF0, 0x69B209BD, 0xA0DD6A9E, 0x645E0EA0, 0x3E40F25C, 0xCFCD50A2,
           0x05DB914E] := by decide +kernel

/-- The parent of chunks 0 and 1 of the pattern (section 2.5). -/
theorem test_parentCv :
    parentCv #v[0x44659E5C, 0xD193E311, 0x10C7BEF4, 0x56BCD5CC, 0x7D17AB69, 0xB60E0A61, 0xE9FEFC91,
        0xB1E8B42F]
      #v[0xB8231F5B, 0xA2680339, 0x919550C1, 0xB7D18903, 0xA652EB16, 0x0A4DD3DF, 0xA2226AA6, 0xA71C761B]
      (parentFlags false)
      = #v[0x4F7D1F81, 0x8E253517, 0x928BC627, 0x4A7CFF14, 0x476D86AC, 0xF1EE3DF7, 0xB50889FD,
           0x4F808FE3] := by decide +kernel

/-- R56's example: the first bytes of the digest with DIGEST[0] = 0xB94913AF. -/
theorem test_digest_bytes :
    (digestBytes { State.reset with digest := State.reset.digest.set 0 0xB94913AF }).take 4
      = [0xAF, 0x13, 0x49, 0xB9] := by decide +kernel

/-! ### The commands, one step each -/

/-- RESET from FINALIZED (section 2.5). -/
theorem test_reset_from_finalized :
    nextIs (fun t => statusWord t == 0 && t.digest == Vector.replicate 8 0 && t.stack.isEmpty)
      (step (due finalized 0x1)) = true := by decide +kernel

/-- COMPRESS on the operands of vector C-1. -/
theorem test_compress_C1 :
    nextIs (fun t => t.out == #v[0xB94913AF, 0xA6A1F9F5, 0xEA4D40A0, 0x49C9DC36, 0xC925CB9B, 0xB712C1AD,
        0xCA939ACC, 0x62321FE4, 0xE7030FE0, 0x6BF29AB6, 0x9FF0AA7F, 0x503033CD, 0xE0DF8D33, 0x86CCB885,
        0x208BA99C, 0x3A24086C])
      (step (due loaded 0x2)) = true := by decide +kernel

/-- BLOCK_LEN = 0x100 is not truncated (section 2.3). -/
theorem test_compress_blockLen_256 :
    nextIs (fun t => statusWord t == 0x30 && t.out == Vector.replicate 16 0)
      (step (due { loaded with blockLen := some 0x100 } 0x2)) = true := by decide +kernel

/-- PUSH_CHUNK in EMPTY: one chunk, one entry, ACCEPTING (section 2.4). -/
theorem test_pushChunk_first :
    nextIs (fun t => t.processedChunks == 1 && statusWord t == 0x02 && t.stack.length == 1)
      (step (due loaded 0x3)) = true := by decide +kernel

/-- PUSH_CHUNK at the counter's limit (section 2.4). -/
theorem test_pushChunk_counter_overflow :
    nextIs (fun t => statusWord t == 0x52 && t.processedChunks == BitVec.allOnes 64)
      (step (due atLimit 0x3)) = true := by decide +kernel

/-- Program P1's command: the empty message, from reset, with no cell written. -/
theorem test_finalize_empty_message :
    nextIs (fun t => statusWord t == 0x04 && stackInfoWord t == 0x01
        && t.digest == #v[0xB94913AF, 0xA6A1F9F5, 0xEA4D40A0, 0x49C9DC36, 0xC925CB9B, 0xB712C1AD,
          0xCA939ACC, 0x62321FE4])
      (step (due State.reset 0x4)) = true := by decide +kernel

/-- FINALIZE 3 of the word 0xFF636261 ignores byte 3: the digest of "abc" (section 2.5). -/
theorem test_finalize_abc :
    nextIs (fun t => t.digest == #v[0xACB33764, 0x33514638, 0x753BB6FF, 0xB58D3A27, 0x4658C548, 0x03DB795D,
        0x6C9C35FD, 0x859DBDD5])
      (step (due { State.reset with chunkBuf := State.reset.chunkBuf.set 0 (some 0xFF636261) } 0x304))
      = true := by decide +kernel

/-! ### Host accesses (section 2.6) -/

theorem test_bus_errors :
    regRead State.reset 0x000 32 = .error .busError ∧ regRead State.reset 0x014 32 = .error .busError
      ∧ regRead State.reset 0x100 32 = .error .busError ∧ regRead State.reset 0x002 32 = .error .busError
      ∧ regRead State.reset 0x800 32 = .error .busError ∧ regRead State.reset 0x004 8 = .error .busError
      ∧ regWrite State.reset 0x004 32 0 = .error .busError
      ∧ regWrite State.reset 0x020 32 0 = .error .busError := by decide +kernel

/-- A read that is refused is recorded, and the host's program is over. -/
theorem test_refused_read_is_recorded :
    nextIs (fun t => t.faulted == some .busError && t.hostProgram.isEmpty)
      (step (doing State.reset (.rd 1 0x014 32))) = true := by decide +kernel

/-- `RD h, 0x040` before any write of CV_IN[0]: UnwrittenRead. -/
theorem test_unwritten_read_is_recorded :
    nextIs (fun t => t.faulted == some .unwrittenRead && t.hostProgram.isEmpty && !t.busy)
      (step (doing State.reset (.rd 1 0x040 32))) = true := by decide +kernel

/-- COMPRESS with MSG[5] unwritten and BLOCK_LEN = 65: the fault comes before INPUT_ERROR, which is not
reported, and the command is over (section 2.3). -/
theorem test_unwritten_operand_is_recorded :
    nextIs (fun t => t.faulted == some .unwrittenOperand && t.err != .inputError && !t.busy)
      (step (due { loaded with msg := loaded.msg.set 5 none, blockLen := some 65 } 0x2)) = true := by
  decide +kernel

/-- pattern(2049): two chunks merged to level 1, then FINALIZE 1; STACK_INFO reads 0x0201 (section 2.5). -/
theorem test_drained_level :
    nextIs (fun t => stackInfoWord t == 0x0201)
      (step (due
        { loaded with
          lifecycle := .accepting, processedChunks := 2
          stack := [{ cv := Vector.replicate 8 7, level := 1 }] } 0x104)) = true := by decide +kernel

/-! ### Witnesses: for each statement with hypotheses, a state and operands that meet them all -/

theorem due_reset_runs (w : Nat) : (due State.reset w).Due :=
  ⟨rfl, rfl, rfl, (by decide +kernel : treeOk State.reset = true)⟩

theorem due_loaded (w : Nat) : (due loaded w).Due :=
  ⟨rfl, rfl, rfl, (by decide +kernel : treeOk loaded = true)⟩

/-- IllegalWordReportsCodeFour: each kind of illegal word, at the edges of its range. -/
theorem test_witness_illegal_words :
    (∀ w ∈ [0x00000000, 0x00000005, 0x0000000F, 0x00000014, 0x00000084, 0x00080004, 0x80000004, 0x00000101,
        0x00040002, 0x0007FF03], (due State.reset w).Due)
      ∧ IllegalWord (due State.reset 0x00000000).inflight ∧ IllegalWord (due State.reset 0x00000005).inflight
      ∧ IllegalWord (due State.reset 0x0000000F).inflight ∧ IllegalWord (due State.reset 0x00000014).inflight
      ∧ IllegalWord (due State.reset 0x00000084).inflight ∧ IllegalWord (due State.reset 0x00080004).inflight
      ∧ IllegalWord (due State.reset 0x80000004).inflight ∧ IllegalWord (due State.reset 0x00000101).inflight
      ∧ IllegalWord (due State.reset 0x00040002).inflight
      ∧ IllegalWord (due State.reset 0x0007FF03).inflight := by
  refine ⟨fun w _ => due_reset_runs w, ?_, ?_, ?_, ?_, ?_, ?_, ?_, ?_, ?_, ?_⟩ <;> unfold IllegalWord <;>
    decide +kernel

/-- StepRunsCommandInFlight, UnwrittenOperandFaults, CommandRunsInTwoSteps (completion): RESET runs;
COMPRESS and PUSH_CHUNK after reset and FINALIZE 5 with one word written meet an unwritten operand, FINALIZE 4
does not; the word 0 is no command. -/
theorem test_witness_completion :
    (due State.reset 0x1).Due ∧ decode (due State.reset 0x1).inflight = .ok .reset
      ∧ (∃ t, exec .reset (due State.reset 0x1) = .next t)
      ∧ (due State.reset 0x2).Due ∧ decode (due State.reset 0x2).inflight = .ok .compress
      ∧ State.reset.faulted = none
      ∧ nextIs (fun t => t.faulted == some .unwrittenOperand)
          (exec .compress { loaded with cvIn := loaded.cvIn.set 0 none }) = true
      ∧ nextIs (fun t => t.faulted == some .unwrittenOperand) (exec .pushChunk State.reset) = true
      ∧ nextIs (fun t => t.faulted == some .unwrittenOperand)
          (exec (.finalize 5) { State.reset with chunkBuf := State.reset.chunkBuf.set 0 (some 1) }) = true
      ∧ nextIs (fun t => t.faulted == none)
          (exec (.finalize 4) { State.reset with chunkBuf := State.reset.chunkBuf.set 0 (some 1) }) = true
      ∧ (due State.reset 0x0).Due ∧ decode (due State.reset 0x0).inflight = .error .reservedOp :=
  ⟨due_reset_runs _, by decide, ⟨_, rfl⟩, due_reset_runs _, by decide, rfl, by decide +kernel,
    by decide +kernel, by decide +kernel, by decide +kernel, due_reset_runs _, by decide⟩

/-- CommandRunsInTwoSteps (issue) and PseudoInstructions. -/
theorem test_witness_host_operations :
    (doing State.reset (.wr 0x000 32 0x1)).HostDoes (.wr 0x000 32 0x1) [.wait]
      ∧ (doing State.reset .wait).HostDoes .wait [.wait]
      ∧ (waiting (doing State.reset .wait)).Running ∧ (waiting (doing State.reset .wait)).busy = true
      ∧ (waiting (doing State.reset .wait)).latencyLeft ≠ 0
      ∧ (waiting (doing State.reset .wait)).hostProgram = .wait :: [.wait]
      ∧ (doing State.reset .chkOk).HostDoes .chkOk [.wait] ∧ (doing State.reset .chkOk).err = .ok
      ∧ (doing { State.reset with err := .inputError } .chkOk).HostDoes .chkOk [.wait]
      ∧ (doing { State.reset with err := .inputError } .chkOk).err ≠ .ok := by
  unfold State.HostDoes State.Running
  decide

/-- PlacedWordRunsNext. -/
theorem test_witness_placed_word :
    treeOk State.reset = true ∧ decodeTableWord 32 0x1 = some .reset
      ∧ ∃ t, exec .reset (State.reset.withFetchWord 32 0x1) = .next t :=
  ⟨by decide, by decide, ⟨_, rfl⟩⟩

/-- CommandInFlightCompletes, with a waiting host and with one whose access is refused. -/
theorem test_witness_in_flight :
    (waiting (doing State.reset .wait)).Running ∧ (waiting (doing State.reset .wait)).busy = true
      ∧ treeOk (waiting (doing State.reset .wait)) = true
      ∧ .hwReset ∉ (waiting (doing State.reset .wait)).hostProgram
      ∧ .hwReset ∉ (waiting (doing State.reset (.wr 0x000 32 1))).hostProgram :=
  ⟨rfl, rfl, by decide, by decide, by decide⟩

/-- BrokenInvariantIsRecorded: ACCEPTING with nothing pushed. -/
theorem test_witness_broken_invariant :
    (due { State.reset with lifecycle := .accepting } 0x1).Running
      ∧ (due { State.reset with lifecycle := .accepting } 0x1).busy = true
      ∧ (due { State.reset with lifecycle := .accepting } 0x1).latencyLeft = 0
      ∧ treeOk (due { State.reset with lifecycle := .accepting } 0x1) = false :=
  ⟨rfl, rfl, rfl, by decide⟩

/-- ResetForgetsEarlierSession: a finalized block and a fresh one with the same operands. -/
theorem test_witness_reset_forgets :
    compressCells finalized = compressCells loaded ∧ finalized.chunkBuf = loaded.chunkBuf
      ∧ nextIs (fun _ => true) (exec .reset finalized) = true
      ∧ nextIs (fun t => nextIs (fun u => u.faulted == none) (exec (.finalize 0) t)) (exec .reset loaded)
        = true
      ∧ (∀ c ∈ compressCells finalized, c ≠ none) ∧ ∀ k : Fin 256, finalized.chunkBuf[k] ≠ none := by
  refine ⟨rfl, rfl, ?_, ?_, (cellsWritten_iff _).1 ?_, fun k => by simp [finalized, loaded]⟩ <;>
    decide +kernel

/-- The operand registers of `loaded` with the given BLOCK_LEN and FLAGS. -/
theorem loaded_operands (bl fl : Word) :
    ({ loaded with blockLen := some bl, flags := some fl } : State).cvIn = iv.map some
      ∧ ({ loaded with blockLen := some bl, flags := some fl } : State).counterLo = some 0
      ∧ ({ loaded with blockLen := some bl, flags := some fl } : State).counterHi = some 0
      ∧ ({ loaded with blockLen := some bl, flags := some fl } : State).blockLen = some bl
      ∧ ({ loaded with blockLen := some bl, flags := some fl } : State).flags = some fl
      ∧ ({ loaded with blockLen := some bl, flags := some fl } : State).msg
        = (Vector.replicate 16 (0 : Word)).map some :=
  ⟨by simp [loaded, iv], rfl, rfl, rfl, rfl, by simp [loaded]⟩

/-- CompressWritesOut and CompressRejectsBadOperands, at the edges of both ranges. -/
theorem test_witness_compress_operands :
    (64 : Word).toNat ≤ 64 ∧ (0x7F : Word).extractLsb' 7 25 = 0
      ∧ (64 < (65 : Word).toNat ∨ (0 : Word).extractLsb' 7 25 ≠ 0)
      ∧ (64 < (0 : Word).toNat ∨ (0x80 : Word).extractLsb' 7 25 ≠ 0)
      ∧ ({ loaded with blockLen := some 64, flags := some 0x7F } : State).cvIn = iv.map some
      ∧ ({ loaded with blockLen := some 65, flags := some 0 } : State).cvIn = iv.map some
      ∧ ({ loaded with blockLen := some 0, flags := some 0x80 } : State).cvIn = iv.map some :=
  ⟨by decide, by decide, by decide, by decide, (loaded_operands 64 0x7F).1, (loaded_operands 65 0).1,
    (loaded_operands 0 0x80).1⟩

/-- CompressDependsOnOperandsOnly: two states that differ in their trees. -/
theorem test_witness_compress_depends :
    compressCells loaded = compressCells accepting ∧ ∀ c ∈ compressCells loaded, c ≠ none :=
  ⟨rfl, (cellsWritten_iff _).1 (by decide +kernel)⟩

theorem loaded_chunk : loaded.chunkBuf = (Vector.replicate 256 (0 : Word)).map some := by
  simp [loaded]

/-- PushChunkPushesAndMerges, ChunkBufferByteOrder, in EMPTY and in ACCEPTING. -/
theorem test_witness_pushChunk :
    loaded.chunkBuf = (Vector.replicate 256 (0 : Word)).map some ∧ loaded.lifecycle ≠ .finalized
      ∧ loaded.processedChunks.toNat ≠ 2 ^ 64 - 1 ∧ loaded.stack.length ≠ 65
      ∧ accepting.chunkBuf = (Vector.replicate 256 (0 : Word)).map some ∧ accepting.lifecycle ≠ .finalized
      ∧ accepting.processedChunks.toNat ≠ 2 ^ 64 - 1 ∧ accepting.stack.length ≠ 65 :=
  ⟨loaded_chunk, by decide, by decide, by decide, loaded_chunk, by decide, by decide, by decide⟩

/-- PushChunkErrorsInOrder and FinalizeErrorsInOrder: each clause has a state. -/
theorem test_witness_error_clauses :
    finalized.lifecycle = .finalized
      ∧ (atLimit.lifecycle ≠ .finalized ∧ atLimit.processedChunks.toNat = 2 ^ 64 - 1)
      ∧ (fullStack.lifecycle ≠ .finalized ∧ fullStack.processedChunks.toNat ≠ 2 ^ 64 - 1
          ∧ fullStack.stack.length = 65)
      ∧ (loaded.lifecycle ≠ .finalized ∧ 1024 < (1025 : BitVec 11).toNat)
      ∧ (fullStack.lifecycle ≠ .finalized ∧ ¬ 1024 < (1024 : BitVec 11).toNat)
      ∧ (loaded.lifecycle ≠ .finalized ∧ loaded.stack.length ≠ 65
          ∧ ∃ t, exec .pushChunk loaded = .next t) :=
  ⟨rfl, by decide, by decide, by decide, by decide, by decide, by decide,
    (exists_next (p := fun _ => true) (by decide +kernel)).imp fun _ h => h.1⟩

/-- FinalizeLatchesRoot: the empty chunk after reset, and a chunk of one byte. -/
theorem test_witness_finalize :
    State.reset.lifecycle ≠ .finalized ∧ (0 : BitVec 11).toNat ≤ 1024 ∧ State.reset.stack.length ≠ 65
      ∧ (∀ k : Fin 256, k.val < ((0 : BitVec 11).toNat + 3) / 4 → State.reset.chunkBuf[k] ≠ none)
      ∧ ([] : List Byte).length = (0 : BitVec 11).toNat
      ∧ (∀ k : Fin 256, k.val < ((1 : BitVec 11).toNat + 3) / 4 → loaded.chunkBuf[k] ≠ none)
      ∧ ([0] : List Byte).length = (1 : BitVec 11).toNat
      ∧ (∀ (k : Fin 256) (j : Fin 4) (w : Word), 4 * k.val + j.val < (1 : BitVec 11).toNat →
          loaded.chunkBuf[k] = some w →
          ([0] : List Byte)[4 * k.val + j.val]? = some (w.extractLsb' (8 * j.val) 8)) := by
  refine ⟨by decide, by decide, by decide, fun k hk => absurd hk (by simp), rfl, ?_, rfl, ?_⟩
  · intro k _
    simp [loaded]
  · intro k j w h hw
    have hk : k.val = 0 := by simp at h; omega
    have hj : j.val = 0 := by simp at h; omega
    have : w = 0 := by simpa [loaded] using hw.symm
    simp [hk, hj, this]

/-- FinalizeIgnoresPaddingBytes: a second buffer that agrees in the one byte of the chunk. -/
theorem test_witness_padding :
    nextIs (fun t => t.err == .ok) (exec (.finalize 1) loaded) = true
      ∧ ∀ k : Fin 256, k.val < ((1 : BitVec 11).toNat + 3) / 4 →
          ∃ w w', loaded.chunkBuf[k] = some w
            ∧ (Vector.replicate 256 (some (0xFFFFFF00 : Word)))[k] = some w'
            ∧ ∀ j : Fin 4, 4 * k.val + j.val < (1 : BitVec 11).toNat →
              w.extractLsb' (8 * j.val) 8 = w'.extractLsb' (8 * j.val) 8 := by
  refine ⟨by decide +kernel, fun k _ => ⟨0, 0xFFFFFF00, by simp [loaded], by simp, fun j h => ?_⟩⟩
  have hj : j.val = 0 := by simp at h; omega
  simp only [hj]
  decide

/-- CommandFrames and LifecycleTable: each command answers a next state somewhere, with success, and fails
somewhere. -/
theorem test_witness_each_command_answers :
    nextIs (fun t => t.err == .ok) (exec .reset finalized) = true
      ∧ nextIs (fun t => t.err == .ok) (exec .compress loaded) = true
      ∧ nextIs (fun t => t.err == .ok) (exec .pushChunk accepting) = true
      ∧ nextIs (fun t => t.err == .ok) (exec (.finalize 1024) accepting) = true
      ∧ nextIs (fun t => t.err == .inputError) (exec .compress { loaded with blockLen := some 65 }) = true
      ∧ nextIs (fun t => t.err == .protocolMisuse) (exec .pushChunk finalized) = true
      ∧ nextIs (fun t => t.err == .protocolMisuse) (exec (.finalize 2000) finalized) = true := by
  decide +kernel

/-- FailedCommandWritesErrOnly, CompletionOverwritesErr,
ErrorCauses: a due command that completes, for each code it can report. -/
theorem test_witness_due_codes :
    (due loaded 0x1).Due ∧ nextIs (fun t => t.faulted.isNone && t.err == .ok) (step (due loaded 0x1)) = true
      ∧ (due loaded 0x0).Due
      ∧ nextIs (fun t => t.faulted.isNone && t.err == .illegalCommand) (step (due loaded 0x0)) = true
      ∧ (due loaded 0x40104).Due
      ∧ nextIs (fun t => t.faulted.isNone && t.err == .inputError) (step (due loaded 0x40104)) = true
      ∧ treeOk (due finalized 0x3) = true
      ∧ nextIs (fun t => t.faulted.isNone && t.err == .protocolMisuse) (step (due finalized 0x3)) = true
      ∧ treeOk (due atLimit 0x3) = true
      ∧ nextIs (fun t => t.faulted.isNone && t.err == .counterOverflow) (step (due atLimit 0x3)) = true :=
  ⟨due_loaded _, by decide +kernel, due_loaded _, by decide +kernel, due_loaded _, by decide +kernel,
    by decide, by decide +kernel, by decide +kernel, by decide +kernel⟩

/-- LifecycleTable, last part: a step that changes STATE. -/
theorem test_witness_lifecycle_change :
    (due finalized 0x1).resetInput = false
      ∧ nextIs (fun t => t.lifecycle != finalized.lifecycle) (step (due finalized 0x1)) = true :=
  ⟨rfl, by decide +kernel⟩

/-- StackShape: sound states of each lifecycle, one with 64 entries. -/
theorem test_witness_sound_stacks :
    treeOk State.reset = true ∧ treeOk accepting = true ∧ treeOk atLimit = true
      ∧ atLimit.stack.length = 64 ∧ treeOk finalized = true := by
  decide +kernel

/-- MergesEqualTrailingZeros. -/
theorem test_witness_merges :
    treeOk accepting = true ∧ nextIs (fun t => t.err == .ok) (exec .pushChunk accepting) = true := by
  decide +kernel

/-- PushChunkExtendsForest and FinalizeGivesTreeRoot: a block that has taken no chunk. -/
theorem test_witness_holds :
    loaded.Holds [] ∧ ([] : List (List Byte)).length + 1 < 2 ^ 64 ∧ (1024 : BitVec 11).toNat ≤ 1024
      ∧ loaded.chunkBuf = (Vector.replicate 256 (0 : Word)).map some :=
  ⟨⟨by decide, by decide, rfl, by decide⟩, by decide, by decide, loaded_chunk⟩

/-- BlockFlagBits: the last block of sixteen. -/
theorem test_witness_last_block : 15 < 16 ∧ (blockFlags 15 16 true) = 0x0A := by decide

/-- ChunkAndParentFunctions: the empty chunk, a short last block, and a full chunk. -/
theorem test_witness_chunk_lengths :
    ([] : List Byte).length ≤ 1024 ∧ 0 < max 1 ((([] : List Byte).length + 63) / 64)
      ∧ (List.replicate 65 (7 : Byte)).length ≤ 1024
      ∧ 1 < max 1 (((List.replicate 65 (7 : Byte)).length + 63) / 64)
      ∧ (List.replicate 1024 (7 : Byte)).length ≤ 1024
      ∧ 15 < max 1 (((List.replicate 1024 (7 : Byte)).length + 63) / 64) := by
  simp only [List.length_replicate, List.length_nil]
  decide

/-- WordsAndBytesAreInverse. -/
theorem test_witness_bytes :
    ([0x03, 0x02, 0x01, 0x00] : List Byte).length = 4 * 1 ∧ 0 < 1
      ∧ wordsLe [0x03, 0x02, 0x01, 0x00] = [0x00010203] ∧ ([0x00010203] : List Word)[0]? = some 0x00010203
      ∧ ({ State.reset with digest := State.reset.digest.set 0 0xB94913AF } : State).digest[0]
        = 0xB94913AF := by
  decide

/-- BusErrorConditions: each of (a) to (e), read or write, with the host to move. -/
theorem test_witness_bus_error_conditions :
    BusErrorCondition State.reset .read 0x800 32 ∧ BusErrorCondition State.reset .read 0x002 32
      ∧ BusErrorCondition State.reset .read 0x004 16 ∧ BusErrorCondition State.reset .read 0x014 32
      ∧ BusErrorCondition State.reset .read 0x07C 32 ∧ BusErrorCondition State.reset .read 0x3FC 32
      ∧ BusErrorCondition State.reset .read 0x000 32 ∧ BusErrorCondition State.reset .write 0x010 32
      ∧ BusErrorCondition State.reset .write 0x03C 32 ∧ BusErrorCondition State.reset .write 0x0FC 32
      ∧ BusErrorCondition (waiting State.reset) .write 0x000 32
      ∧ (doing State.reset (.rd 1 0x800 32)).HostMoves
      ∧ (waiting (doing State.reset (.wr 0x000 32 1))).HostMoves := by
  unfold BusErrorCondition ReservedOffset ReadOnlyOffset State.HostMoves State.Running
  refine ⟨?_, ?_, ?_, ?_, ?_, ?_, ?_, ?_, ?_, ?_, ?_, ?_, ?_⟩ <;> decide

/-- BusyAllowsStatusReadOnly and OperandsStayWhileBusy. -/
theorem test_witness_busy :
    (waiting State.reset).busy = true ∧ (waiting State.reset).resetInput = false
      ∧ nextIs (fun _ => true) (step (waiting State.reset)) = true := by
  decide +kernel

/-- ReadsHaveNoSideEffect: a read with nothing in flight, one of an unwritten cell, and a STATUS read while
BUSY. -/
theorem test_witness_reads :
    (doing State.reset (.rd 1 0x020 32)).HostMoves
      ∧ regRead (doing State.reset (.rd 1 0x020 32)) 0x020 32 = .ok 0
      ∧ unwrittenAt (doing State.reset (.rd 1 0x020 32)) 0x020 = false
      ∧ (doing State.reset (.rd 1 0x7FC 32)).HostMoves
      ∧ (match regRead (doing State.reset (.rd 1 0x7FC 32)) 0x7FC 32 with
          | .ok _ => true | .error _ => false) = true
      ∧ unwrittenAt (doing State.reset (.rd 1 0x7FC 32)) 0x7FC = true
      ∧ (waiting (doing State.reset (.rd 1 0x004 32))).HostMoves
      ∧ regRead (waiting (doing State.reset (.rd 1 0x004 32))) 0x004 32 = .ok 1 := by
  unfold State.HostMoves State.Running
  decide +kernel

/-- WrittenRegisterReadsBack: the first and the last data register, and one of each kind. -/
theorem test_witness_register_writes :
    (match regWrite State.reset 0x040 32 5 with | .ok t => t.cvIn[0] == some 5 | .error _ => false) = true
      ∧ (match regWrite State.reset 0x06C 32 0xFFFFFFFF with
          | .ok t => t.flags == some 0xFFFFFFFF | .error _ => false) = true
      ∧ (match regWrite State.reset 0x0BC 32 5 with | .ok t => t.msg[15] == some 5 | .error _ => false) = true
      ∧ (match regWrite State.reset 0x7FC 32 5 with
          | .ok t => t.chunkBuf[255] == some 5 | .error _ => false) = true := by
  decide +kernel

/-- UnwrittenCellReadFaults, DataRegistersStoreEveryBit, StackInfoFields, ChunkCountReads, StatusFields: the
state after reset. -/
theorem test_witness_reset_registers :
    State.reset.busy = false ∧ State.reset.stack.length ≤ 65 ∧ State.reset.cvIn[7] = none
      ∧ State.reset.counterLo = none ∧ State.reset.counterHi = none ∧ State.reset.blockLen = none
      ∧ State.reset.flags = none ∧ State.reset.msg[15] = none ∧ State.reset.chunkBuf[255] = none
      ∧ (doing State.reset (.rd 1 0x7FC 32)).HostDoes (.rd 1 0x7FC 32) [.wait]
      ∧ unwrittenAt (doing State.reset (.rd 1 0x7FC 32)) 0x7FC = true
      ∧ unwrittenAt { State.reset with counterLo := some 0 } 0x060 = false
      ∧ accepting.busy = false ∧ accepting.stack = { cv := Vector.replicate 8 7, level := 0 } :: [] := by
  unfold State.HostDoes State.Running
  decide +kernel

/-- DataRegistersChangeByHostWriteOnly: a step of a host that reads. -/
theorem test_witness_no_host_write :
    (doing State.reset .wait).resetInput = false
      ∧ nextIs (fun _ => true) (step (doing State.reset .wait)) = true
      ∧ ∀ off width v rest, (doing State.reset .wait).hostProgram ≠ .wr off width v :: rest :=
  ⟨rfl, by decide +kernel, fun _ _ _ _ h => by simp [doing] at h⟩

/-- FaultIsNeverCleared: a faulted state under reset, and a step that records each kind. -/
theorem test_witness_faults :
    (State.reset.recordFault .busError).faulted = some .busError
      ∧ (State.reset.recordFault .busError).hostProgram = []
      ∧ nextIs (fun t => t.faulted == some .busError)
          (core.run 1 (State.reset.recordFault .busError).assertReset) = true
      ∧ (due State.reset 0x3).faulted = none
      ∧ nextIs (fun t => t.faulted == some .unwrittenOperand) (step (due State.reset 0x3)) = true
      ∧ nextIs (fun t => t.faulted == some .busError)
          (step (waiting (doing State.reset (.rd 1 0x008 32)))) = true
      ∧ nextIs (fun t => t.faulted == some .unwrittenRead) (step (doing State.reset (.rd 1 0x06C 32))) = true
      ∧ nextIs (fun t => t.faulted == some .invariantViolation)
          (step (due { State.reset with lifecycle := .accepting } 0x1)) = true := by
  decide +kernel

/-- HardwareResetValues: reset in the middle of a command. -/
theorem test_witness_hardware_reset :
    (waiting finalized).assertReset.resetInput = true
      ∧ nextIs (fun t => !t.busy && t.lifecycle == .empty) (step (waiting finalized).assertReset) = true := by
  decide +kernel

/-- HostOperationsRunInOrder: a step for each operation, one with BUSY = 1, and one that is not the
host's. -/
theorem test_witness_host_order :
    (doing State.reset (.rd 1 0x004 32)).HostMoves ∧ (waiting (doing State.reset .wait)).HostMoves
      ∧ ¬ (due State.reset 0x1).HostMoves
      ∧ State.reset.HostMoves ∧ State.reset.hostProgram = []
      ∧ (waiting State.reset).HostMoves ∧ (waiting State.reset).hostProgram = []
      ∧ nextIs (fun t => t.latencyLeft == 1 && t.busy) (step (waiting State.reset)) = true
      ∧ nextIs (fun t => t.faulted.isNone && t.counterLo == some 5)
          (step (doing State.reset (.wr 0x060 32 5))) = true
      ∧ nextIs (fun t => t.faulted.isNone && lookup 1 t.hostVars == some 0)
          (step (doing State.reset (.rd 1 0x004 32))) = true
      ∧ nextIs (fun t => t.faulted.isNone) (step (due State.reset 0x1)) = true
      ∧ nextIs (fun t => t.hostProgram == [.wait]) (step (doing State.reset .hwReset)) = true
      ∧ nextIs (fun t => t.hostProgram == [.wait, .wait]) (step (waiting (doing State.reset .wait))) = true
      ∧ nextIs (fun t => t.hostFailed && t.hostProgram.isEmpty)
          (step (doing { State.reset with err := .inputError } .chkOk)) = true := by
  unfold State.HostMoves State.Running
  decide +kernel

/-- StepKeepsInvariant: the state after reset meets the invariant and takes a step. -/
theorem test_witness_invariant :
    State.reset.Inv ∧ nextIs (fun _ => true) (step State.reset) = true :=
  ⟨⟨by decide, rfl, by unfold errOk; decide, rfl⟩, by decide +kernel⟩

end Sys2Proof.Machine.Tests
end

section
/-! PROOFS. The pending stack read as a binary numeral: the levels on it are the positions of the 1 bits of
the number of chunks it covers, and a merge pass is the carry of a binary addition (10_state.md R24,
42_tree_merger.md R152). -/

namespace Sys2Proof.Machine

/-! ### The levels on a stack and the chunks it covers -/

/-- The levels on a stack, top first. -/
def levels (stack : List Node) : List Nat := stack.map fun n => n.level.toNat

@[simp] theorem levels_nil : levels [] = [] := rfl

@[simp] theorem levels_cons (n : Node) (stack : List Node) :
    levels (n :: stack) = n.level.toNat :: levels stack := rfl

@[simp] theorem levels_length (stack : List Node) : (levels stack).length = stack.length :=
  List.length_map _

/-- How many chunks the entries of a stack cover, a node of level `k` covering `2^k` of them (R23). -/
def chunksCovered (stack : List Node) : Nat := ((levels stack).map fun k => 2 ^ k).sum

@[simp] theorem chunksCovered_nil : chunksCovered [] = 0 := rfl

@[simp] theorem chunksCovered_cons (n : Node) (stack : List Node) :
    chunksCovered (n :: stack) = 2 ^ n.level.toNat + chunksCovered stack := by
  simp [chunksCovered]

theorem chunksCovered_of_levels {stack : List Node} {n : Nat} (h : levels stack = n.bitIndices) :
    chunksCovered stack = n := by
  rw [chunksCovered, h, Nat.sum_map_two_pow_bitIndices]

/-- Levels that rise are the 1 bits of the number of chunks covered. -/
theorem levels_eq_bitIndices {stack : List Node} (h : (levels stack).Pairwise (· < ·)) :
    levels stack = (chunksCovered stack).bitIndices :=
  (Nat.bitIndices_sum_map_two_pow (List.sortedLT_iff_pairwise.mpr h)).symm

/-! ### The positions of the 1 bits of the counter -/

/-- The positions of the 1 bits of the counter are the library's bit indices of its value. -/
theorem onePositions_eq_bitIndices (n : BitVec 64) : onePositions n = n.toNat.bitIndices := by
  refine (onePositions_rise n).eq_of_mem_iff Nat.bitIndices_sorted.pairwise fun k => ?_
  rw [mem_onePositions, Nat.mem_bitIndices, BitVec.testBit_toNat]
  exact ⟨fun h => h.2, fun h => ⟨BitVec.lt_of_getLsbD h, h⟩⟩

theorem lt_of_mem_bitIndices {n : BitVec 64} {k : Nat} (h : k ∈ n.toNat.bitIndices) : k < 64 := by
  rw [← onePositions_eq_bitIndices] at h
  exact (mem_onePositions.mp h).1

/-- A numeral of the counter has at most 64 entries. -/
theorem length_le_of_levels {stack : List Node} {n : BitVec 64} (h : levels stack = n.toNat.bitIndices) :
    stack.length ≤ 64 := by
  rw [← levels_length, h, ← onePositions_eq_bitIndices]
  exact (List.length_filter_le _ _).trans_eq List.length_range

/-! ### A merge pass -/

/-- A parent is one level above its left child, unless the 7-bit level wraps (log entry 19). -/
theorem mergeNodes_level {left : Node} (right : Node) (flags : Word) (h : left.level.toNat < 127) :
    (mergeNodes left right flags).level.toNat = left.level.toNat + 1 := by
  change (left.level + 1#7).toNat = _
  bv_omega

/-- Two nodes of level 127 would cover `2^128` chunks. -/
theorem level_lt_of_covered {left top : Node} (h : left.level = top.level) (below : List Node)
    (hlt : chunksCovered (top :: left :: below) < 2 ^ 128) : left.level.toNat < 127 := by
  by_contra hc
  have := Nat.pow_le_pow_right (n := 2) (by omega) (show 127 ≤ left.level.toNat by omega)
  simp only [chunksCovered_cons, ← h] at hlt
  omega

/-- What every merge of a pass keeps holds of the stack it leaves, and the top two entries of that stack have
different levels. -/
theorem mergeOnto_keeps_of_merge {P : Node → List Node → Prop}
    (hmerge : ∀ top left below, left.level = top.level → P top (left :: below) →
      P (mergeNodes left top (parentFlags false)) below)
    {top : Node} {rest : List Node} (h : P top rest) :
    ∃ top' rest', mergeOnto top rest = top' :: rest' ∧ P top' rest'
      ∧ ∀ left ∈ rest'.head?, left.level ≠ top'.level := by
  induction rest generalizing top with
  | nil => exact ⟨top, [], rfl, h, by simp⟩
  | cons left below ih =>
    by_cases hl : left.level = top.level
    · rw [mergeOnto_merges hl]
      exact ih (hmerge top left below hl h)
    · exact ⟨top, left :: below, mergeOnto_keeps hl below, h, by simpa using hl⟩

@[simp] theorem mergeReady_cons (top : Node) (rest : List Node) :
    mergeReady (top :: rest) = mergeOnto top rest := rfl

/-- A node on its way down a stack: the stack below is a numeral, none of its levels is below the node's, and
`N` chunks are covered in all. -/
structure Carrying (N : Nat) (top : Node) (rest : List Node) : Prop where
  rises : (levels rest).Pairwise (· < ·)
  le_below : ∀ k ∈ levels rest, top.level.toNat ≤ k
  covered : chunksCovered (top :: rest) = N

/-- A leaf on a numeral carries into it. -/
theorem carrying_leaf {stack : List Node} {n : Nat} (cv : Cv) (h : levels stack = n.bitIndices) :
    Carrying (n + 1) { cv := cv, level := 0 } stack := by
  refine ⟨by rw [h]; exact Nat.bitIndices_sorted.pairwise, by simp, ?_⟩
  simp [chunksCovered_of_levels h, Nat.add_comm]

/-- A merge carries on: the parent's level is at most every level below it. -/
theorem carrying_merge {N : Nat} (hN : N < 2 ^ 128) {top left : Node} {below : List Node}
    (hl : left.level = top.level) (h : Carrying N top (left :: below)) :
    Carrying N (mergeNodes left top (parentFlags false)) below := by
  obtain ⟨hrise, -, hcov⟩ := h
  have hlevel := mergeNodes_level top (parentFlags false) (level_lt_of_covered hl below (by omega))
  rw [levels_cons, List.pairwise_cons] at hrise
  refine ⟨hrise.2, fun k hk => ?_, ?_⟩
  · rw [hlevel]
    exact hrise.1 k hk
  · simp only [chunksCovered_cons, ← hl] at hcov
    rw [chunksCovered_cons, hlevel, Nat.pow_succ]
    omega

/-- A node that carries no further stands on a numeral. -/
theorem levels_rise_of_carrying {N : Nat} {top : Node} {rest : List Node} (h : Carrying N top rest)
    (hstop : ∀ left ∈ rest.head?, left.level ≠ top.level) : (levels (top :: rest)).Pairwise (· < ·) := by
  obtain ⟨hrise, hle, -⟩ := h
  rw [levels_cons, List.pairwise_cons]
  refine ⟨?_, hrise⟩
  cases rest with
  | nil => simp
  | cons left below =>
    have hne : left.level.toNat ≠ top.level.toNat := fun h =>
      hstop left rfl (BitVec.eq_of_toNat_eq h)
    have hlt : top.level.toNat < left.level.toNat := by
      have := hle left.level.toNat (by simp)
      omega
    rw [levels_cons, List.pairwise_cons] at hrise
    intro k hk
    rcases List.mem_cons.mp hk with rfl | hk
    · exact hlt
    · exact hlt.trans (hrise.1 k hk)

/-- A merge pass leaves the numeral of the chunks covered: merging is binary addition. -/
theorem mergeOnto_levels {N : Nat} (hN : N < 2 ^ 128) {top : Node} {rest : List Node}
    (h : Carrying N top rest) : levels (mergeOnto top rest) = N.bitIndices := by
  obtain ⟨top', rest', heq, hcarry, hstop⟩ :=
    mergeOnto_keeps_of_merge (fun _ _ _ hl => carrying_merge hN hl) h
  rw [heq, levels_eq_bitIndices (levels_rise_of_carrying hcarry hstop), hcarry.covered]

/-! ### A drain -/

/-- Draining a stack ends one level above its bottom entry (R153). -/
theorem drainOnto_level_le {stack : List Node} (h : ∀ k ∈ levels stack, k < 64) {right : Node}
    (hr : right.level.toNat ≤ 64) : (drainOnto right stack).level.toNat ≤ 64 := by
  induction stack generalizing right with
  | nil => exact hr
  | cons left below ih =>
    simp only [levels_cons, List.forall_mem_cons] at h
    rw [drainOnto_cons]
    exact ih h.2 (by rw [mergeNodes_level _ _ (by omega)]; exact h.1)

end Sys2Proof.Machine
end

section
/-! PROOFS. The tree invariants of R24 and R156 as propositions, one for each lifecycle. -/

namespace Sys2Proof.Machine

theorem treeOk_empty {s : State} (hl : s.lifecycle = .empty) :
    treeOk s = true ↔ s.processedChunks = 0 ∧ s.stack = [] := by
  simp [treeOk, hl]

theorem treeOk_accepting {s : State} (hl : s.lifecycle = .accepting) :
    treeOk s = true ↔ s.processedChunks ≠ 0 ∧ levels s.stack = s.processedChunks.toNat.bitIndices := by
  simp [treeOk, hl, levels, onePositions_eq_bitIndices]

theorem treeOk_finalized {s : State} (hl : s.lifecycle = .finalized) :
    treeOk s = true ↔ ∃ root, s.stack = [root] ∧ root.level.toNat ≤ 64 := by
  unfold treeOk
  rw [hl]
  rcases s.stack with _ | ⟨root, _ | ⟨n, below⟩⟩ <;> simp

/-- Before FINALIZE the stack of a sound tree is the numeral of the counter. -/
theorem levels_of_treeOk {s : State} (h : treeOk s = true) (hl : s.lifecycle ≠ .finalized) :
    levels s.stack = s.processedChunks.toNat.bitIndices := by
  cases hlc : s.lifecycle with
  | empty =>
    obtain ⟨hcount, hstack⟩ := (treeOk_empty hlc).mp h
    simp [hcount, hstack]
  | accepting => exact ((treeOk_accepting hlc).mp h).2
  | finalized => exact absurd hlc hl

/-- The stack of a sound tree is never at its capacity of 65 (R24). -/
theorem stack_length_le_of_treeOk {s : State} (h : treeOk s = true) : s.stack.length ≤ 64 := by
  by_cases hl : s.lifecycle = .finalized
  · obtain ⟨root, hstack, -⟩ := (treeOk_finalized hl).mp h
    simp [hstack]
  · exact length_le_of_levels (levels_of_treeOk h hl)

theorem stack_length_ne_of_treeOk {s : State} (h : treeOk s = true) :
    s.stack.length ≠ Config.stackDepth := by
  have := stack_length_le_of_treeOk h
  simp only [Config.stackDepth]
  omega

/-- Settles O30: before FINALIZE the levels are the positions of the 1 bits of the counter. -/
theorem stackShape : Obligations.StackShape := by
  intro s h
  refine ⟨stack_length_le_of_treeOk h, fun hl => ?_, fun hl => ?_⟩
  · have hlevels := levels_of_treeOk h hl
    rw [← onePositions_eq_bitIndices] at hlevels
    refine ⟨?_, by rw [← hlevels, levels_length]⟩
    show (levels s.stack).Pairwise (· < ·)
    rw [hlevels]
    exact onePositions_rise _
  · obtain ⟨root, hstack, -⟩ := (treeOk_finalized hl).mp h
    simp [hstack]

end Sys2Proof.Machine
end

section
/-! PROOFS. The frames of the commands and of the host's operations: what none of them changes. -/

namespace Sys2Proof.Machine

/-- A command changes the tree, the results and ERR, and it may record a fault; nothing else. -/
theorem exec_frame {i : Instr} {s t : State} (h : exec i s = .next t) :
    t = { s with
      lifecycle := t.lifecycle, processedChunks := t.processedChunks, stack := t.stack
      digest := t.digest, out := t.out, err := t.err
      faulted := t.faulted, hostProgram := t.hostProgram } := by
  cases i with
  | reset => cases h; rfl
  | compress =>
    rcases execCompress_cases s with ⟨-, -, he⟩ | ⟨-, he⟩ <;> cases he.symm.trans h
    · rfl
    · rw [noteOperands_frame]; rfl
  | pushChunk =>
    rcases execPushChunk_cases s with ⟨c, -, he, -⟩ | ⟨-, -, -, he⟩ <;> cases he.symm.trans h
    · rfl
    · rw [noteOperands_frame]; rfl
  | finalize len =>
    rcases execFinalize_cases len s with ⟨c, -, he, -⟩ | ⟨-, -, -, he⟩ <;> cases he.symm.trans h
    · rfl
    · rw [noteOperands_frame]; rfl

@[simp] theorem noteOperands_lifecycle (s : State) (cells : List (Option Word)) :
    (s.noteOperands cells).lifecycle = s.lifecycle := by rw [noteOperands_frame]

@[simp] theorem noteOperands_processedChunks (s : State) (cells : List (Option Word)) :
    (s.noteOperands cells).processedChunks = s.processedChunks := by rw [noteOperands_frame]

@[simp] theorem noteOperands_stack (s : State) (cells : List (Option Word)) :
    (s.noteOperands cells).stack = s.stack := by rw [noteOperands_frame]

@[simp] theorem noteOperands_digest (s : State) (cells : List (Option Word)) :
    (s.noteOperands cells).digest = s.digest := by rw [noteOperands_frame]

@[simp] theorem noteOperands_hostVars (s : State) (cells : List (Option Word)) :
    (s.noteOperands cells).hostVars = s.hostVars := by rw [noteOperands_frame]

end Sys2Proof.Machine
end

section
/-! PROOFS. The invariant `State.Inv`: one rule for each update of the state, then each command, the
completion, and the host's operations. -/

namespace Sys2Proof.Machine

/-! ### The updates -/

section
variable (s : State)

@[simp] theorem recordFault_inv (f : Fault) : (s.recordFault f).Inv ↔ s.Inv := Iff.rfl

@[simp] theorem finishCommand_inv : s.finishCommand.Inv ↔ s.Inv := Iff.rfl

@[simp] theorem countDown_inv : s.countDown.Inv ↔ s.Inv := Iff.rfl

@[simp] theorem assertReset_inv : s.assertReset.Inv ↔ s.Inv := Iff.rfl

@[simp] theorem setOut_inv (o : Block) : (s.setOut o).Inv ↔ s.Inv := Iff.rfl

@[simp] theorem setProgram_inv (p : List HostOp) : (s.setProgram p).Inv ↔ s.Inv := Iff.rfl

@[simp] theorem failHost_inv : s.failHost.Inv ↔ s.Inv := Iff.rfl

@[simp] theorem noteOperands_inv (cells : List (Option Word)) : (s.noteOperands cells).Inv ↔ s.Inv := by
  rw [noteOperands_frame]; exact Iff.rfl

@[simp] theorem noteRead_inv (off : Nat) : (s.noteRead off).Inv ↔ s.Inv := by
  rw [noteRead_frame]; exact Iff.rfl

end

theorem raiseErr_inv {s : State} {c : ErrCode} (h : s.Inv) (hc : c ≠ .invariantViolation)
    (hc' : c ≠ .stackOverflow) : (s.raiseErr c).Inv := by
  obtain ⟨htree, hdigest, -, hvars⟩ := h
  exact ⟨htree, hdigest, ⟨hc, hc'⟩, hvars⟩

theorem succeed_inv {s : State} (h : s.Inv) : s.succeed.Inv := raiseErr_inv h (by simp) (by simp)

theorem setVar_inv {s : State} (n : Nat) (v : Word) (h : s.Inv) : (s.setVar n v).Inv := by
  obtain ⟨htree, hdigest, herr, hvars⟩ := h
  exact ⟨htree, hdigest, herr, assign_sorted n v _ hvars⟩

theorem hardwareReset_inv {s : State} (h : s.Inv) : s.hardwareReset.Inv := by
  obtain ⟨-, -, -, hvars⟩ := h
  exact ⟨rfl, rfl, ⟨by simp [State.reset], by simp [State.reset]⟩, hvars⟩

theorem regWrite_inv {s t : State} {off width : Nat} {v : Word} (hs : s.Inv)
    (h : regWrite s off width v = .ok t) : t.Inv := by
  obtain ⟨r, -, hr⟩ := regWrite_ok h
  rcases writeReg_ok hr with ⟨-, rfl⟩ | ⟨i, -, rfl⟩ | ⟨-, rfl⟩ | ⟨-, rfl⟩ | ⟨-, rfl⟩ | ⟨-, rfl⟩
    | ⟨i, -, rfl⟩ | ⟨k, -, rfl⟩ <;> exact hs

/-! ### DIGEST -/

theorem digest_of_digestOk {s : State} (h : digestOk s) (hl : s.lifecycle ≠ .finalized) :
    s.digest = Vector.replicate 8 0 := by
  unfold digestOk at h
  cases hlc : s.lifecycle with
  | empty => simpa only [hlc] using h
  | accepting => simpa only [hlc] using h
  | finalized => exact absurd hlc hl

/-! ### The commands -/

/-- A counter below its largest value counts on. -/
theorem toNat_succ_of_ne_max {n : BitVec 64} (h : n.toNat ≠ 2 ^ 64 - 1) : (n + 1).toNat = n.toNat + 1 := by
  bv_omega

/-- The stack after PUSH_CHUNK is the numeral of the next counter. -/
theorem pushLeaf_levels {s : State} (cv : Cv) (hmax : s.processedChunks.toNat ≠ 2 ^ 64 - 1)
    (h : levels s.stack = s.processedChunks.toNat.bitIndices) :
    levels (s.pushLeaf cv).stack = (s.processedChunks + 1).toNat.bitIndices := by
  have := s.processedChunks.isLt
  rw [toNat_succ_of_ne_max hmax]
  exact mergeOnto_levels (by omega) (carrying_leaf cv h)

theorem execReset_inv {s t : State} (hs : s.Inv) (h : execReset s = .next t) : t.Inv := by
  obtain ⟨-, -, -, hvars⟩ := hs
  cases h
  exact ⟨rfl, rfl, ⟨by simp, by simp⟩, hvars⟩

theorem execCompress_inv {s t : State} (hs : s.Inv) (h : execCompress s = .next t) : t.Inv := by
  rcases execCompress_cases s with ⟨-, -, he⟩ | ⟨-, he⟩ <;> cases he.symm.trans h
  · exact raiseErr_inv hs (by simp) (by simp)
  · exact succeed_inv (by simpa using hs)

theorem execPushChunk_inv {s t : State} (hs : s.Inv) (h : execPushChunk s = .next t) : t.Inv := by
  have ⟨htree, hdigest, _, hvars⟩ := hs
  rcases execPushChunk_cases s with ⟨c, -, he, hc⟩ | ⟨hl, hmax, -, he⟩ <;> cases he.symm.trans h
  · rcases hc with ⟨rfl, -⟩ | ⟨rfl, -⟩ | ⟨-, -, -, hfull⟩
    · exact raiseErr_inv hs (by simp) (by simp)
    · exact raiseErr_inv hs (by simp) (by simp)
    · exact absurd hfull (stack_length_ne_of_treeOk htree)
  · have hpos : s.processedChunks + 1 ≠ 0 := fun h0 =>
      Nat.succ_ne_zero _ ((toNat_succ_of_ne_max hmax).symm.trans (congrArg BitVec.toNat h0))
    have hlevels := pushLeaf_levels (chunkCv (chunkBytes s Config.chunkBytes) s.processedChunks false) hmax
      (levels_of_treeOk htree hl)
    refine ⟨(treeOk_accepting rfl).mpr ⟨by simpa using hpos, by simpa using hlevels⟩, ?_,
      ⟨by simp, by simp⟩, by simpa using hvars⟩
    simpa [digestOk] using digest_of_digestOk hdigest hl

theorem rootNode_level_le {s : State} (L : Nat) (h : treeOk s = true) (hl : s.lifecycle ≠ .finalized) :
    (rootNode s L).level.toNat ≤ 64 := by
  refine drainOnto_level_le (fun k hk => ?_) (by simp)
  rw [levels_of_treeOk h hl] at hk
  exact lt_of_mem_bitIndices hk

theorem execFinalize_inv {len : BitVec 11} {s t : State} (hs : s.Inv)
    (h : execFinalize len s = .next t) : t.Inv := by
  have ⟨htree, _, _, hvars⟩ := hs
  rcases execFinalize_cases len s with ⟨c, -, he, hc⟩ | ⟨hl, -, -, he⟩ <;> cases he.symm.trans h
  · rcases hc with ⟨rfl, -⟩ | ⟨rfl, -⟩ | ⟨-, -, -, hfull⟩
    · exact raiseErr_inv hs (by simp) (by simp)
    · exact raiseErr_inv hs (by simp) (by simp)
    · exact absurd hfull (stack_length_ne_of_treeOk htree)
  · exact ⟨(treeOk_finalized rfl).mpr ⟨_, rfl, rootNode_level_le _ htree hl⟩, rfl,
      ⟨by simp, by simp⟩, by simpa using hvars⟩

theorem exec_inv {i : Instr} {s t : State} (hs : s.Inv) (h : exec i s = .next t) : t.Inv := by
  cases i with
  | reset => exact execReset_inv hs h
  | compress => exact execCompress_inv hs h
  | pushChunk => exact execPushChunk_inv hs h
  | finalize len => exact execFinalize_inv hs h

/-! ### The two agents -/

theorem completeCommand_inv {s t : State} (hs : s.Inv) (h : completeCommand s = .next t) : t.Inv := by
  rcases completeCommand_next h with ⟨e, -, rfl⟩ | ⟨i, u, -, hu, rfl⟩
  · exact (finishCommand_inv _).mpr (raiseErr_inv hs (by simp) (by simp))
  · exact (finishCommand_inv _).mpr (exec_inv hs hu)

theorem hostOp_inv {s t : State} {op : HostOp} {rest : List HostOp} (hs : s.Inv)
    (h : hostOp s op rest = .next t) : t.Inv := by
  rcases hostOp_next h with ⟨off, width, v, u, -, hu, rfl⟩ | ⟨n, off, width, v, -, -, rfl⟩ | ⟨-, rfl⟩
    | ⟨-, rfl⟩ | ⟨-, rfl | rfl⟩ | ⟨-, rfl⟩
  · exact (setProgram_inv _ _).mpr (regWrite_inv hs hu)
  · simpa using setVar_inv n v hs
  · simpa using hs
  · simpa using setVar_inv statusVar (statusWord s) hs
  · simpa using setVar_inv statusVar (statusWord s) hs
  · simpa using setVar_inv statusVar (statusWord s) hs
  · simpa using hs

theorem hostTurn_inv {s t : State} (hs : s.Inv) (h : hostTurn s = .next t) : t.Inv := by
  cases hp : s.hostProgram with
  | nil =>
    cases (hostTurn_idle hp).symm.trans h
    exact hs
  | cons op rest => exact hostOp_inv hs ((hostTurn_cons hp).symm.trans h)

/-- Settles O59: a hardware reset, a completion, a recorded fault and a host turn each keep the invariant. -/
theorem stepKeepsInvariant : Obligations.StepKeepsInvariant := by
  intro s t hs h
  rcases step_next h with ⟨-, rfl⟩ | ⟨-, hturn⟩
  · exact hardwareReset_inv hs
  · rcases turn_next hturn with ⟨-, -, -, hc⟩ | ⟨-, -, -, rfl⟩ | ⟨-, -, hh⟩ | ⟨-, hh⟩
    · exact completeCommand_inv hs hc
    · exact (recordFault_inv s _).mpr hs
    · exact hostTurn_inv ((countDown_inv s).mpr hs) hh
    · exact hostTurn_inv hs hh

end Sys2Proof.Machine
end

section
/-! PROOFS. The forest on the pending stack (10_state.md R24, 42_tree_merger.md R151, R152, R158): a stack
covers a list of chunks when each of its nodes is the tree over the run of chunks that begins where the
entries below it end. A merge pass keeps that, and on a numeral it is `State.Holds`. -/

namespace Sys2Proof.Machine

/-! ### The hash tree -/

theorem splitSize_lt {k : Nat} (h : 2 ≤ k) : splitSize k < k := by
  have := Nat.log2_self_le (n := k - 1) (by omega)
  unfold splitSize
  omega

theorem splitSize_two_pow (k : Nat) : splitSize (2 ^ (k + 1)) = 2 ^ k := by
  have hpos : 0 < 2 ^ k := Nat.two_pow_pos k
  have hlog : (2 ^ (k + 1) - 1).log2 = k := by
    rw [Nat.log2_eq_iff (by omega)]
    omega
  rw [splitSize, hlog]

theorem treeCv_leaf (cs : List (List Byte)) (fuel lo : Nat) {k : Nat} (hk : k ≤ 1) (top : Bool) :
    treeCv cs fuel lo k top = chunkCv (cs.getD lo []) (BitVec.ofNat 64 lo) top := by
  cases fuel with
  | zero => rfl
  | succ fuel => rw [treeCv, if_pos hk]

/-- With enough fuel, more of it makes no difference. -/
theorem treeCv_fuel (cs : List (List Byte)) {fuel fuel' k : Nat} (h : k ≤ fuel) (h' : k ≤ fuel')
    (lo : Nat) (top : Bool) : treeCv cs fuel lo k top = treeCv cs fuel' lo k top := by
  induction fuel generalizing fuel' k lo top with
  | zero => rw [treeCv_leaf cs _ _ (by omega), treeCv_leaf cs _ _ (by omega)]
  | succ fuel ih =>
    by_cases hk : k ≤ 1
    · rw [treeCv_leaf cs _ _ hk, treeCv_leaf cs _ _ hk]
    · have hlt := splitSize_lt (k := k) (by omega)
      have hpos : 0 < splitSize k := Nat.two_pow_pos _
      obtain ⟨fuel', rfl⟩ : ∃ n, fuel' = n + 1 := ⟨fuel' - 1, by omega⟩
      rw [treeCv, if_neg hk, treeCv, if_neg hk, ih (fuel' := fuel') (by omega) (by omega),
        ih (fuel' := fuel') (by omega) (by omega)]

/-- The tree over `2^(k+1)` chunks is the parent of the trees over its two halves (R158). -/
theorem treeCv_two_pow_succ (cs : List (List Byte)) (k lo : Nat) :
    treeCv cs (2 ^ (k + 1)) lo (2 ^ (k + 1)) false
      = parentCv (treeCv cs (2 ^ k) lo (2 ^ k) false) (treeCv cs (2 ^ k) (lo + 2 ^ k) (2 ^ k) false)
          (parentFlags false) := by
  have hpos : 0 < 2 ^ k := Nat.two_pow_pos k
  have hhalf : 2 ^ (k + 1) - 2 ^ k = 2 ^ k := by omega
  obtain ⟨fuel, hfuel⟩ : ∃ n, 2 ^ (k + 1) = n + 1 := ⟨2 ^ (k + 1) - 1, by omega⟩
  conv_lhs => rw [hfuel, treeCv, if_neg (by omega), ← hfuel, splitSize_two_pow, hhalf]
  rw [treeCv_fuel cs (fuel := fuel) (by omega) le_rfl lo,
    treeCv_fuel cs (fuel := fuel) (by omega) le_rfl (lo + 2 ^ k)]

/-- The tree over chunks that are there does not see the chunks after them. -/
theorem treeCv_append (cs cs' : List (List Byte)) (fuel : Nat) {lo k : Nat} (hk : 0 < k)
    (h : lo + k ≤ cs.length) (top : Bool) :
    treeCv (cs ++ cs') fuel lo k top = treeCv cs fuel lo k top := by
  have hget : ∀ {i}, i < cs.length → (cs ++ cs').getD i [] = cs.getD i [] := fun {i} hi => by
    simp [List.getD, List.getElem?_append_left hi]
  induction fuel generalizing lo k top with
  | zero => rw [treeCv, treeCv, hget (by omega)]
  | succ fuel ih =>
    by_cases hone : k ≤ 1
    · rw [treeCv_leaf _ _ _ hone, treeCv_leaf _ _ _ hone, hget (by omega)]
    · have hlt := splitSize_lt (k := k) (by omega)
      have hpos : 0 < splitSize k := Nat.two_pow_pos _
      rw [treeCv, if_neg hone, treeCv, if_neg hone, ih hpos (by omega), ih (by omega) (by omega)]

/-! ### Stacks that cover chunks -/

/-- Each node of the stack is the tree over the run of chunks of its size that begins where the entries below
it end. -/
def Covers (cs : List (List Byte)) : List Node → Prop
  | [] => True
  | n :: below =>
    n.cv = treeCv cs (2 ^ n.level.toNat) (chunksCovered below) (2 ^ n.level.toNat) false ∧ Covers cs below

theorem covers_cons (cs : List (List Byte)) (n : Node) (below : List Node) :
    Covers cs (n :: below)
      ↔ n.cv = treeCv cs (2 ^ n.level.toNat) (chunksCovered below) (2 ^ n.level.toNat) false
        ∧ Covers cs below := Iff.rfl

/-- Chunks that come later leave what is covered as it is. -/
theorem covers_append {cs : List (List Byte)} (cs' : List (List Byte)) {stack : List Node}
    (hle : chunksCovered stack ≤ cs.length) (h : Covers cs stack) : Covers (cs ++ cs') stack := by
  induction stack with
  | nil => trivial
  | cons n below ih =>
    obtain ⟨hcv, hbelow⟩ := h
    rw [chunksCovered_cons] at hle
    refine ⟨?_, ih (le_of_add_le_right hle) hbelow⟩
    rw [hcv, treeCv_append cs cs' _ (Nat.two_pow_pos _) (by omega)]

/-- The leaf of the last chunk covers it, on a stack that covers the chunks before. -/
theorem covers_leaf {cs : List (List Byte)} (c : List Byte) {stack : List Node}
    (hcov : chunksCovered stack = cs.length) (h : Covers cs stack) :
    Covers (cs ++ [c]) ({ cv := chunkCv c (BitVec.ofNat 64 cs.length) false, level := 0 } :: stack) := by
  refine ⟨?_, covers_append [c] hcov.le h⟩
  rw [hcov, treeCv_leaf _ _ _ (by simp)]
  simp

/-- A merge keeps what is covered: the parent is the tree over both runs. -/
theorem covers_merge {cs : List (List Byte)} {top left : Node} {below : List Node}
    (hl : left.level = top.level) (hlt : left.level.toNat < 127) (h : Covers cs (top :: left :: below)) :
    Covers cs (mergeNodes left top (parentFlags false) :: below) := by
  obtain ⟨htop, hleft, hbelow⟩ := h
  refine ⟨?_, hbelow⟩
  rw [mergeNodes_level top _ hlt, treeCv_two_pow_succ, ← hleft, Nat.add_comm (chunksCovered below),
    ← chunksCovered_cons, hl, ← htop]
  rfl

theorem mergeOnto_covers {cs : List (List Byte)} {N : Nat} (hN : N < 2 ^ 128) {top : Node}
    {rest : List Node} (hcarry : Carrying N top rest) (h : Covers cs (top :: rest)) :
    Covers cs (mergeOnto top rest) := by
  obtain ⟨top', rest', heq, ⟨-, hcov⟩, -⟩ :=
    mergeOnto_keeps_of_merge (P := fun top rest => Carrying N top rest ∧ Covers cs (top :: rest))
      (fun top left below hl ⟨hcarry, hcov⟩ =>
        ⟨carrying_merge hN hl hcarry,
          covers_merge hl (level_lt_of_covered hl below (hcarry.covered ▸ hN)) hcov⟩)
      ⟨hcarry, h⟩
  rwa [heq]

/-! ### Covering stacks and the forest -/

/-- On a numeral of `n` chunks the entries below a node of level `k` end at `n` with the bits `k` and below
cleared. -/
theorem chunksCovered_below {n k w : Nat} (hdvd : 2 ^ (k + 1) ∣ w) (hle : w ≤ n)
    (hlt : n < w + 2 ^ (k + 1)) : w = n >>> (k + 1) <<< (k + 1) := by
  obtain ⟨q, rfl⟩ := hdvd
  have hdiv : n / 2 ^ (k + 1) = q :=
    Nat.div_eq_of_lt_le (by rwa [Nat.mul_comm]) (by rw [Nat.succ_mul, Nat.mul_comm q]; exact hlt)
  rw [Nat.shiftLeft_eq, Nat.shiftRight_eq_div_pow, hdiv, Nat.mul_comm]

theorem two_pow_dvd_chunksCovered {k : Nat} {stack : List Node} (h : ∀ j ∈ levels stack, k ≤ j) :
    2 ^ k ∣ chunksCovered stack := by
  refine List.dvd_sum fun x hx => ?_
  obtain ⟨j, hj, rfl⟩ := List.mem_map.mp hx
  exact Nat.pow_dvd_pow 2 (h j hj)

/-- A stack of rising levels that reaches to the last chunks but fewer than its top node's size covers them
exactly if it is made of the nodes of the forest. -/
theorem covers_iff_forestNode {cs : List (List Byte)} {stack : List Node}
    (hrise : (levels stack).Pairwise (· < ·)) (hle : chunksCovered stack ≤ cs.length)
    (hlt : ∀ n ∈ stack.head?, cs.length < chunksCovered stack + 2 ^ n.level.toNat) :
    Covers cs stack ↔ stack = (levels stack).map (forestNode cs) := by
  induction stack with
  | nil => simp [Covers]
  | cons n below ih =>
    rw [levels_cons, List.pairwise_cons] at hrise
    obtain ⟨habove, hrise⟩ := hrise
    have hlt := hlt n rfl
    rw [chunksCovered_cons] at hle hlt
    have hstart := chunksCovered_below (n := cs.length)
      (two_pow_dvd_chunksCovered (stack := below) (fun j hj => habove j hj)) (by omega) (by omega)
    have hnode : n.cv = treeCv cs (2 ^ n.level.toNat) (chunksCovered below) (2 ^ n.level.toNat) false
        ↔ n = forestNode cs n.level.toNat := by
      rw [hstart]
      cases n
      simp [forestNode]
    have hbelow := ih hrise (by omega) fun m hm => by
      cases below with
      | nil => simp at hm
      | cons m' rest =>
        obtain rfl : m' = m := by simpa using hm
        have := Nat.pow_le_pow_right (n := 2) (by omega) (habove m'.level.toNat (by simp))
        omega
    rw [covers_cons, levels_cons, List.map_cons, List.cons.injEq, hnode, hbelow]

theorem levels_map_forestNode (cs : List (List Byte)) (n : BitVec 64) :
    levels ((onePositions n).map (forestNode cs)) = onePositions n := by
  rw [levels, List.map_map]
  refine (List.map_congr_left fun k hk => ?_).trans (List.map_id _)
  have := (mem_onePositions.mp hk).1
  simp only [Function.comp_apply, forestNode, BitVec.toNat_ofNat, id]
  omega

/-- On the numeral of the number of chunks, covering them is being their forest. -/
theorem covers_iff_of_levels {cs : List (List Byte)} {stack : List Node}
    (h : levels stack = cs.length.bitIndices) :
    Covers cs stack ↔ stack = cs.length.bitIndices.map (forestNode cs) := by
  have hcov := chunksCovered_of_levels h
  rw [← h]
  refine covers_iff_forestNode (by rw [h]; exact Nat.bitIndices_sorted.pairwise) hcov.le fun n _ => ?_
  have := Nat.two_pow_pos n.level.toNat
  omega

/-- A block holds the chunks `cs` exactly if its stack is the numeral of their number and covers them. -/
theorem holds_iff (s : State) (cs : List (List Byte)) :
    s.Holds cs ↔ s.lifecycle ≠ .finalized ∧ cs.length < 2 ^ 64
      ∧ s.processedChunks = BitVec.ofNat 64 cs.length
      ∧ levels s.stack = cs.length.bitIndices ∧ Covers cs s.stack := by
  refine and_congr_right fun _ => and_congr_right fun hlen => and_congr_right fun hcount => ?_
  have hones : onePositions s.processedChunks = cs.length.bitIndices := by
    rw [onePositions_eq_bitIndices, hcount, BitVec.toNat_ofNat, Nat.mod_eq_of_lt hlen]
  rw [hones]
  constructor
  · intro hstack
    have hlevels : levels s.stack = cs.length.bitIndices := by
      rw [hstack, ← hones, levels_map_forestNode]
    exact ⟨hlevels, (covers_iff_of_levels hlevels).mpr hstack⟩
  · exact fun ⟨hlevels, hcovers⟩ => (covers_iff_of_levels hlevels).mp hcovers

/-! ### PUSH_CHUNK -/

theorem chunkBytes_full {s : State} {ws : Vector Word 256} (h : s.chunkBuf = ws.map some) :
    chunkBytes s Config.chunkBytes = bytesLe ws.toList := by
  rw [chunkBytes, chunkWords_written s h]
  exact List.take_of_length_le (by simp)

theorem chunkCells_written {s : State} {ws : Vector Word 256} (h : s.chunkBuf = ws.map some) (L : Nat) :
    cellsWritten (chunkCells s L) = true := by
  rw [cellsWritten_iff]
  intro c hc
  obtain ⟨w, -, rfl⟩ : ∃ w ∈ ws, some w = c := by
    simpa [h] using List.mem_of_mem_take hc
  simp

/-- PUSH_CHUNK of a written chunk succeeds while the counter and the stack have room. -/
theorem execPushChunk_succeeds {s : State} {ws : Vector Word 256} (hl : s.lifecycle ≠ .finalized)
    (hmax : s.processedChunks.toNat ≠ 2 ^ 64 - 1) (hroom : s.stack.length ≠ Config.stackDepth)
    (hbuf : s.chunkBuf = ws.map some) :
    execPushChunk s
      = .next ((s.pushLeaf (chunkCv (bytesLe ws.toList) s.processedChunks false)).setLifecycle
          .accepting).succeed := by
  simp only [execPushChunk, if_neg hl, if_neg hmax, if_neg hroom,
    noteOperands_written s (chunkCells_written hbuf _), chunkBytes_full hbuf]

/-- Settles O32: the new leaf covers the new chunk, and the merge pass keeps what is covered. -/
theorem pushChunkExtendsForest : Obligations.PushChunkExtendsForest := by
  intro s cs ws hs hroom hbuf
  obtain ⟨hl, hlen, hcount, hlevels, hcovers⟩ := (holds_iff s cs).mp hs
  have htoNat : s.processedChunks.toNat = cs.length := by
    rw [hcount, BitVec.toNat_ofNat, Nat.mod_eq_of_lt hlen]
  have hlength := length_le_of_levels (hlevels.trans (congrArg Nat.bitIndices htoNat.symm))
  refine ⟨_, execPushChunk_succeeds hl (by omega) (by simp only [Config.stackDepth]; omega) hbuf, rfl,
    (holds_iff _ _).mpr ⟨by simp, by simpa using hroom, by simp [hcount, BitVec.ofNat_add], ?_, ?_⟩⟩
  · simpa using mergeOnto_levels (by omega) (carrying_leaf _ hlevels)
  · have hleaf := covers_leaf (bytesLe ws.toList) (chunksCovered_of_levels hlevels) hcovers
    rw [← hcount] at hleaf
    exact mergeOnto_covers (by omega) (carrying_leaf _ hlevels) hleaf

end Sys2Proof.Machine
end

section
/-! PROOFS. The register map and the rules for one access (10_state.md R28 to R31, 20_memory.md R52, R58):
each register has its own offset, a legal access of a register is a read or a write of it, and a write of a
data register sets its cell alone. -/

namespace Sys2Proof.Machine

/-! ### The map -/

/-- The offsets rise in the order of R30's table. -/
theorem regOffset_rises : (allRegs.map regOffset).IsChain (· < ·) := by decide +kernel

theorem regOffset_injective : Function.Injective regOffset := fun r r' h =>
  List.inj_on_of_nodup_map (List.isChain_iff_pairwise.mp regOffset_rises).nodup (mem_allRegs r)
    (mem_allRegs r') h

@[simp] theorem regAt_regOffset (r : Reg) : regAt (regOffset r) = some r := by
  obtain ⟨r', hr'⟩ : ∃ r', regAt (regOffset r) = some r' :=
    Option.isSome_iff_exists.mp (List.find?_isSome.mpr ⟨r, mem_allRegs r, by simp⟩)
  rw [hr', regOffset_injective (regOffset_of_regAt hr')]

theorem regAt_eq_some_iff {r : Reg} {off : Nat} : regAt off = some r ↔ off = regOffset r :=
  ⟨fun h => (regOffset_of_regAt h).symm, fun h => h ▸ regAt_regOffset r⟩

/-- Settles O39: the offsets rise along R30's table, so no two registers share one. -/
theorem registerMapIsOneToOne : Obligations.RegisterMapIsOneToOne := fun _ _ => regAt_eq_some_iff

/-! ### An access of a register at its offset -/

theorem access_regOffset {s : State} (hb : s.busy = false) {d : Dir} {r : Reg} (ha : allows d r = true) :
    access s d (regOffset r) 32 = .ok r := by
  simp [access, ha, hb]

theorem regRead_regOffset {s : State} (hb : s.busy = false) (r : Reg) (ha : allows .read r = true) :
    regRead s (regOffset r) 32 = readReg s r := by
  simp [regRead, access_regOffset hb ha]

theorem regWrite_regOffset {s : State} (hb : s.busy = false) (v : Word) (r : Reg)
    (ha : allows .write r = true) : regWrite s (regOffset r) 32 v = writeReg s v r := by
  simp [regWrite, access_regOffset hb ha]

theorem regRead_of_regAt_none {s : State} {off : Nat} (h : regAt off = none) (width : Nat) :
    regRead s off width = .error .busError := by
  simp [regRead, access, h]

@[simp] theorem unwrittenAt_regOffset (s : State) (r : Reg) :
    unwrittenAt s (regOffset r) = true ↔ regCell s r = some none := by
  simp [unwrittenAt]

/-- Whether an access is legal depends on nothing of the state but BUSY. -/
theorem access_congr {s t : State} (h : t.busy = s.busy) (d : Dir) (off width : Nat) :
    access t d off width = access s d off width := by
  simp [access, h]

/-- What a read of a register's offset gives depends on BUSY and on what the register reads. -/
theorem regRead_congr {s t : State} {r : Reg} (hb : t.busy = s.busy) (h : readReg t r = readReg s r)
    (width : Nat) : regRead t (regOffset r) width = regRead s (regOffset r) width := by
  unfold regRead
  rw [access_congr hb]
  split
  · rfl
  · next r' haccess =>
    obtain ⟨-, hat, -⟩ := access_ok haccess
    obtain rfl : r = r' := by simpa using hat
    exact h

/-! ### Data registers -/

/-- The registers that hold a cell can be read, and what they give is what is in the cell or a free value. -/
theorem readReg_of_regCell {s : State} {r : Reg} {c : Option Word} (h : regCell s r = some c) :
    allows .read r = true ∧ readReg s r = .ok (operandValue s (regOffset r) c) := by
  cases r <;> cases h
  all_goals exact ⟨rfl, rfl⟩

theorem vector_getElem_set_ne {n : Nat} (xs : Vector (Option Word) n) (x : Option Word) {i j : Fin n}
    (h : i ≠ j) : (xs.set i x)[j] = xs[j] :=
  Vector.getElem_set_ne i.isLt j.isLt (Fin.val_ne_of_ne h)

/-- A write of a data register does not touch BUSY. -/
theorem writeReg_busy {s t : State} {v : Word} {r : Reg} (hne : r ≠ .cmd) (h : writeReg s v r = .ok t) :
    t.busy = s.busy := by
  rcases writeReg_ok h with ⟨rfl, -⟩ | ⟨i, -, rfl⟩ | ⟨-, rfl⟩ | ⟨-, rfl⟩ | ⟨-, rfl⟩ | ⟨-, rfl⟩
    | ⟨i, -, rfl⟩ | ⟨k, -, rfl⟩
  · exact absurd rfl hne
  all_goals rfl

/-- A write of a data register puts the word into its cell (R28). -/
theorem regCell_writeReg_same {s t : State} {v : Word} {r : Reg} (hne : r ≠ .cmd)
    (h : writeReg s v r = .ok t) : regCell t r = some (some v) := by
  rcases writeReg_ok h with ⟨rfl, -⟩ | ⟨i, rfl, rfl⟩ | ⟨rfl, rfl⟩ | ⟨rfl, rfl⟩ | ⟨rfl, rfl⟩ | ⟨rfl, rfl⟩
    | ⟨i, rfl, rfl⟩ | ⟨k, rfl, rfl⟩
  · exact absurd rfl hne
  all_goals simp [regCell]

/-- A write of a register leaves the cells of the others as they are. -/
theorem regCell_writeReg_other {s t : State} {v : Word} {r r' : Reg} (hne : r' ≠ r)
    (h : writeReg s v r = .ok t) : regCell t r' = regCell s r' := by
  rcases writeReg_ok h with ⟨rfl, rfl⟩ | ⟨i, rfl, rfl⟩ | ⟨rfl, rfl⟩ | ⟨rfl, rfl⟩ | ⟨rfl, rfl⟩ | ⟨rfl, rfl⟩
    | ⟨i, rfl, rfl⟩ | ⟨k, rfl, rfl⟩
  · cases r' <;> rfl
  · cases r' with
    | cvIn j => exact congrArg some (vector_getElem_set_ne _ _ fun hij => hne (hij ▸ rfl))
    | _ => rfl
  · cases r' with
    | counterLo => exact absurd rfl hne
    | _ => rfl
  · cases r' with
    | counterHi => exact absurd rfl hne
    | _ => rfl
  · cases r' with
    | blockLen => exact absurd rfl hne
    | _ => rfl
  · cases r' with
    | flags => exact absurd rfl hne
    | _ => rfl
  · cases r' with
    | msg j => exact congrArg some (vector_getElem_set_ne _ _ fun hij => hne (hij ▸ rfl))
    | _ => rfl
  · cases r' with
    | chunkBuf j => exact congrArg some (vector_getElem_set_ne _ _ fun hij => hne (hij ▸ rfl))
    | _ => rfl

/-- A write of a data register leaves what the command, status and result registers read. -/
theorem readReg_writeReg_of_no_cell {s t : State} {v : Word} {r r' : Reg} (hne : r ≠ .cmd)
    (h : writeReg s v r = .ok t) (hc : regCell s r' = none) : readReg t r' = readReg s r' := by
  obtain ⟨hl, hcount, hstack, hdigest, hout, herr, -⟩ := writeReg_frame h
  have hbusy := writeReg_busy hne h
  cases r' with
  | cmd => rfl
  | status => simp only [readReg, statusWord, hbusy, hl, herr]
  | chunkCountLo => simp only [readReg, hcount]
  | chunkCountHi => simp only [readReg, hcount]
  | stackInfo => simp only [readReg, stackInfoWord, topLevel, hstack]
  | digest i => simp only [readReg, hdigest]
  | out i => simp only [readReg, hout]
  | _ => cases hc

/-- A write of a data register leaves what the other registers read, but for unwritten cells. -/
theorem readReg_writeReg_other {s t : State} {v : Word} {r r' : Reg} (hcmd : r ≠ .cmd) (hne : r' ≠ r)
    (h : writeReg s v r = .ok t) (hw : regCell s r' ≠ some none) : readReg t r' = readReg s r' := by
  cases hc : regCell s r' with
  | none => exact readReg_writeReg_of_no_cell hcmd h hc
  | some c =>
    obtain ⟨x, rfl⟩ := Option.ne_none_iff_exists'.mp fun h0 : c = none => hw (h0 ▸ hc)
    rw [(readReg_of_regCell hc).2, (readReg_of_regCell ((regCell_writeReg_other hne h).trans hc)).2]
    rfl

/-- Settles O43: the write sets the register's own cell, and every other register has another offset. -/
theorem writtenRegisterReadsBack : Obligations.WrittenRegisterReadsBack := by
  intro s t off v hoff hwrite
  obtain ⟨r, haccess, hr⟩ := regWrite_ok hwrite
  obtain ⟨-, hat, -, hidle⟩ := access_ok haccess
  obtain rfl := regOffset_of_regAt hat
  have hcmd : r ≠ .cmd := fun h => hoff (h ▸ rfl)
  have hbusy : s.busy = false := by
    by_contra hb
    cases (hidle (by simpa using hb)).1
  have hbusy' := writeReg_busy hcmd hr
  have hcell := regCell_writeReg_same hcmd hr
  obtain ⟨hreads, hvalue⟩ := readReg_of_regCell hcell
  refine ⟨(regRead_regOffset (hbusy'.trans hbusy) r hreads).trans hvalue, ?_, fun off' hoff' => ?_⟩
  · simp [unwrittenAt, hcell]
  · cases hr' : regAt off' with
    | none => simp [unwrittenAt, regRead_of_regAt_none, hr']
    | some r' =>
      obtain rfl := regOffset_of_regAt hr'
      have hne : r' ≠ r := fun h => hoff' (h ▸ rfl)
      refine ⟨by simp [unwrittenAt, regCell_writeReg_other hne hr], fun hw => ?_⟩
      have hkeep := readReg_writeReg_other hcmd hne hr (by simpa [unwrittenAt] using hw)
      exact regRead_congr hbusy' hkeep 32

/-- Settles O44: each is the write of a data register at its own offset. -/
theorem dataRegistersStoreEveryBit : Obligations.DataRegistersStoreEveryBit := fun _ v hb =>
  ⟨fun i => regWrite_regOffset hb v (.cvIn i) rfl, regWrite_regOffset hb v .counterLo rfl,
    regWrite_regOffset hb v .counterHi rfl, regWrite_regOffset hb v .blockLen rfl,
    regWrite_regOffset hb v .flags rfl, fun i => regWrite_regOffset hb v (.msg i) rfl,
    fun k => regWrite_regOffset hb v (.chunkBuf k) rfl⟩

/-! ### Unwritten cells -/

theorem unwrittenAt_iff_of_regCell {s : State} {r : Reg} {c : Option Word} (h : regCell s r = some c) :
    unwrittenAt s (regOffset r) = true ↔ c = none := by
  simp [h]

/-- A read of an unwritten cell gives the free value (R31). -/
theorem regRead_unwritten {s : State} (hb : s.busy = false) {off : Nat} (h : unwrittenAt s off = true) :
    regRead s off 32 = .ok (Config.unwrittenValue s off) := by
  cases hr : regAt off with
  | none => simp [unwrittenAt, hr] at h
  | some r =>
    obtain rfl := regOffset_of_regAt hr
    obtain ⟨hreads, hvalue⟩ := readReg_of_regCell ((unwrittenAt_regOffset s r).mp h)
    exact (regRead_regOffset hb r hreads).trans hvalue

/-- The host's own moves do not change which cells are unwritten. -/
theorem unwrittenAt_setVar_setProgram (s : State) (h : Nat) (v : Word) (rest : List HostOp) (off : Nat) :
    unwrittenAt ((s.setVar h v).setProgram rest) off = unwrittenAt s off := by
  have : regCell ((s.setVar h v).setProgram rest) = regCell s := by
    funext r
    cases r <;> rfl
  simp [unwrittenAt, this]

/-- The host's read of an unwritten cell assigns the free value and records the fault (R31, R207). -/
theorem step_read_unwritten {s : State} {n off : Nat} {rest : List HostOp}
    (hdoes : s.HostDoes (.rd n off 32) rest) (hu : unwrittenAt s off = true) :
    step s = .next { s with
      hostVars := assign n (Config.unwrittenValue s off) s.hostVars
      faulted := some (s.faulted.getD .unwrittenRead), hostProgram := [] } := by
  obtain ⟨hr, hb, hp⟩ := hdoes
  rw [step_eq_hostTurn hr hb, hostTurn_cons hp, hostOp, regRead_unwritten hb hu]
  simp only [noteRead_unwritten ((unwrittenAt_setVar_setProgram s n _ rest off).trans hu)]
  rfl

/-- Settles O45: an offset is unwritten by the cell of the register there. -/
theorem unwrittenCellReadFaults : Obligations.UnwrittenCellReadFaults := fun _ hb =>
  ⟨fun i => unwrittenAt_iff_of_regCell (r := .cvIn i) rfl,
    unwrittenAt_iff_of_regCell (r := .counterLo) rfl, unwrittenAt_iff_of_regCell (r := .counterHi) rfl,
    unwrittenAt_iff_of_regCell (r := .blockLen) rfl, unwrittenAt_iff_of_regCell (r := .flags) rfl,
    fun i => unwrittenAt_iff_of_regCell (r := .msg i) rfl,
    fun k => unwrittenAt_iff_of_regCell (r := .chunkBuf k) rfl,
    fun _ _ _ hdoes hu => ⟨_, regRead_unwritten hb hu, step_read_unwritten hdoes hu⟩⟩

/-- CHUNK_COUNT_HI and CHUNK_COUNT_LO together are the counter (R34). -/
theorem count_halves (n : BitVec 64) :
    (n.extractLsb' 32 32).toNat * 2 ^ 32 + (n.extractLsb' 0 32).toNat = n.toNat := by
  have := n.isLt
  simp only [BitVec.extractLsb'_toNat, Nat.shiftRight_eq_div_pow]
  omega

/-- Settles O48: each is the read of a result register at its own offset. -/
theorem chunkCountReads : Obligations.ChunkCountReads := fun s hb =>
  ⟨_, _, regRead_regOffset hb .chunkCountLo rfl, regRead_regOffset hb .chunkCountHi rfl,
    count_halves s.processedChunks, fun i => regRead_regOffset hb (.digest i) rfl,
    fun i => regRead_regOffset hb (.out i) rfl⟩

end Sys2Proof.Machine
end

section
/-! PROOFS. The status words field by field (10_state.md R32, R33). -/

namespace Sys2Proof.Machine

/-! ### STATUS -/

/-- Bits 2:1 of STATUS are STATE. -/
@[simp] theorem statusWord_lifecycle (s : State) :
    (statusWord s).extractLsb' 1 2 = lifecycleBits s.lifecycle := by
  ext i hi
  interval_cases i <;> simp [statusWord]

@[simp] theorem statusWord_bit3 (s : State) : (statusWord s).getLsbD 3 = false := by
  simp [statusWord]

@[simp] theorem statusWord_high (s : State) : (statusWord s).extractLsb' 8 24 = 0 := by
  ext i hi
  simp (disch := omega) [statusWord, BitVec.getLsbD_of_ge]

/-- A command in flight shows in bit 0 of STATUS only. -/
theorem statusWord_issue {s : State} (v : Word) (hb : s.busy = false) :
    statusWord (s.issue v) = statusWord s ||| 1 := by
  simp only [statusWord, hb, State.issue_busy, State.issue_lifecycle, State.issue_err]
  rw [BitVec.or_comm _ 1]
  simp [← BitVec.or_assoc]

/-- Settles O46: STATUS can be read in every state, and each field of its word is known. -/
theorem statusFields : Obligations.StatusFields := by
  intro s
  refine ⟨statusWord s, regRead_status s, statusWord_busy s, ?_, statusWord_bit3 s, ?_,
    statusWord_high s, fun v hb => ?_⟩
  · rw [statusWord_lifecycle]
    cases s.lifecycle <;> rfl
  · rw [statusWord_err]
    cases s.err <;> rfl
  · rw [← statusWord_issue v hb]
    exact regRead_status _

/-! ### STACK_INFO -/

/-- Bits 6:0 of STACK_INFO are the number of entries. -/
@[simp] theorem stackInfoWord_size (s : State) :
    (stackInfoWord s).extractLsb' 0 7 = BitVec.ofNat 7 s.stack.length := by
  ext i hi
  simp (disch := omega) [stackInfoWord]
  omega

@[simp] theorem stackInfoWord_bit7 (s : State) : (stackInfoWord s).getLsbD 7 = false := by
  simp [stackInfoWord]

/-- Bits 14:8 of STACK_INFO are the level of the top entry. -/
@[simp] theorem stackInfoWord_topLevel (s : State) : (stackInfoWord s).extractLsb' 8 7 = topLevel s := by
  ext i hi
  simp (disch := omega) [stackInfoWord, BitVec.getLsbD_of_ge]

@[simp] theorem stackInfoWord_high (s : State) : (stackInfoWord s).extractLsb' 15 17 = 0 := by
  ext i hi
  simp (disch := omega) [stackInfoWord, BitVec.getLsbD_of_ge]

theorem topLevel_nil {s : State} (h : s.stack = []) : topLevel s = 0 := by
  simp [topLevel, h]

theorem topLevel_cons {s : State} {top : Node} {below : List Node} (h : s.stack = top :: below) :
    topLevel s = top.level := by
  simp [topLevel, h]

/-- A register that is not W or RW cannot be written, whatever the state (R52 (d)). -/
theorem regWrite_readOnly (s : State) (v : Word) {r : Reg} (ha : allows .write r = false) :
    regWrite s (regOffset r) 32 v = .error .busError := by
  simp [regWrite, access, ha]

/-- Settles O47: STACK_INFO is read-only, and each field of its word is known. -/
theorem stackInfoFields : Obligations.StackInfoFields := by
  refine ⟨regRead_regOffset rfl .stackInfo rfl, fun s v => regWrite_readOnly s v (r := .stackInfo) rfl,
    fun s hb hlen => ⟨stackInfoWord s, regRead_regOffset hb .stackInfo rfl, ?_, stackInfoWord_bit7 s,
      fun h => ?_, fun top below h => ?_, stackInfoWord_high s⟩⟩
  · rw [stackInfoWord_size, BitVec.toNat_ofNat]
    omega
  · rw [stackInfoWord_topLevel, topLevel_nil h]
  · rw [stackInfoWord_topLevel, topLevel_cons h]

end Sys2Proof.Machine
end

section
/-! PROOFS. What leaves the data registers as they are (10_state.md R28, R29): every completion, every recorded
fault, and every operation of the host but a write. -/

namespace Sys2Proof.Machine

theorem exec_dataRegisters {i : Instr} {s t : State} (h : exec i s = .next t) :
    compressCells t = compressCells s ∧ t.chunkBuf = s.chunkBuf := by
  rw [exec_frame h]
  exact ⟨rfl, rfl⟩

theorem completeCommand_dataRegisters {s t : State} (h : completeCommand s = .next t) :
    compressCells t = compressCells s ∧ t.chunkBuf = s.chunkBuf := by
  rcases completeCommand_next h with ⟨e, -, rfl⟩ | ⟨i, u, -, hu, rfl⟩
  · exact ⟨rfl, rfl⟩
  · exact exec_dataRegisters (t := u) hu

theorem hostOp_dataRegisters {s t : State} {op : HostOp} {rest : List HostOp}
    (hop : ∀ off width v, op ≠ .wr off width v) (h : hostOp s op rest = .next t) :
    compressCells t = compressCells s ∧ t.chunkBuf = s.chunkBuf := by
  rcases hostOp_next h with ⟨off, width, v, u, rfl, -⟩ | ⟨n, off, width, v, -, -, rfl⟩ | ⟨-, rfl⟩
    | ⟨-, rfl⟩ | ⟨-, rfl | rfl⟩ | ⟨-, rfl⟩
  · exact absurd rfl (hop off width v)
  · rw [noteRead_frame]
    exact ⟨rfl, rfl⟩
  all_goals exact ⟨rfl, rfl⟩

theorem hostTurn_dataRegisters {s t : State}
    (hop : ∀ off width v rest, s.hostProgram ≠ .wr off width v :: rest)
    (h : hostTurn s = .next t) : compressCells t = compressCells s ∧ t.chunkBuf = s.chunkBuf := by
  cases hp : s.hostProgram with
  | nil =>
    cases (hostTurn_idle hp).symm.trans h
    exact ⟨rfl, rfl⟩
  | cons op rest =>
    refine hostOp_dataRegisters (fun off width v hwr => ?_) ((hostTurn_cons hp).symm.trans h)
    exact hop off width v rest (hwr ▸ hp)

/-- Settles O50: without a reset and a write of the host, each turn leaves the data registers. -/
theorem dataRegistersChangeByHostWriteOnly : Obligations.DataRegistersChangeByHostWriteOnly := by
  intro s t hr h hop
  rcases step_next h with ⟨hreset, -⟩ | ⟨-, hturn⟩
  · simp [hr] at hreset
  · rcases turn_next hturn with ⟨-, -, -, hc⟩ | ⟨-, -, -, rfl⟩ | ⟨-, -, hh⟩ | ⟨-, hh⟩
    · exact completeCommand_dataRegisters hc
    · exact ⟨rfl, rfl⟩
    · exact hostTurn_dataRegisters (s := s.countDown) hop hh
    · exact hostTurn_dataRegisters hop hh

end Sys2Proof.Machine
end

section
/-! PROOFS. Words and bytes (20_memory.md R53 to R56): each word and each byte by its formula, the two forms
inverse to each other, and the chunk buffer in that order. -/

namespace Sys2Proof.Machine

/-! ### Words from bytes -/

/-- Word `i` is made of the four bytes from `4i` (R53). -/
theorem wordsLe_getElem? {B : List Byte} {i : Nat} (h : 4 * i + 4 ≤ B.length) :
    (wordsLe B)[i]? = some (chunkWord B i) := by
  induction B using wordsLe.induct generalizing i with
  | case1 b0 b1 b2 b3 rest ih =>
    cases i with
    | zero => rfl
    | succ i => exact ih (i := i) (by simp at h; omega)
  | case2 B hB =>
    match B, hB with
    | b0 :: b1 :: b2 :: b3 :: rest, hB => exact (hB b0 b1 b2 b3 rest rfl).elim
    | [], _ | [_], _ | [_, _], _ | [_, _, _], _ => simp at h

/-! ### Bytes from words -/

/-- Byte `4i + j` is byte `j` of word `i` (R54). -/
theorem bytesLe_getElem? {W : List Word} {i : Nat} {w : Word} (h : W[i]? = some w) (j : Fin 4) :
    (bytesLe W)[4 * i + j.val]? = some (byteOfWord w j.val) := by
  induction W generalizing i with
  | nil => cases h
  | cons w' W ih =>
    cases i with
    | zero =>
      cases h
      fin_cases j <;> rfl
    | succ i =>
      rw [show 4 * (i + 1) + j.val = 4 * i + j.val + 4 by omega]
      exact ih h

theorem bytesLe_drop (W : List Word) (k : Nat) : (bytesLe W).drop (4 * k) = bytesLe (W.drop k) := by
  induction k generalizing W with
  | zero => rfl
  | succ k ih =>
    cases W with
    | nil => simp
    | cons w W => exact ih W

theorem bytesLe_take (W : List Word) (k : Nat) : (bytesLe W).take (4 * k) = bytesLe (W.take k) := by
  induction k generalizing W with
  | zero => rfl
  | succ k ih =>
    cases W with
    | nil => simp
    | cons w W => simp [Nat.mul_succ, ih]

/-! ### The two are inverse -/

/-- A word is made of its own four bytes. -/
@[simp] theorem wordOfBytes_byteOfWord (w : Word) :
    wordOfBytes (byteOfWord w 0) (byteOfWord w 1) (byteOfWord w 2) (byteOfWord w 3) = w := by
  ext i hi
  interval_cases i <;> simp [wordOfBytes, byteOfWord]

@[simp] theorem wordsLe_bytesLe (W : List Word) : wordsLe (bytesLe W) = W := by
  induction W with
  | nil => rfl
  | cons w W ih => simp [wordsLe, ih]

theorem bytesLe_wordsLe {B : List Byte} (h : 4 ∣ B.length) : bytesLe (wordsLe B) = B := by
  induction B using wordsLe.induct with
  | case1 b0 b1 b2 b3 rest ih =>
    simp [wordsLe, ih ((Nat.dvd_add_left (dvd_refl 4)).mp h)]
  | case2 B hB =>
    match B, hB with
    | b0 :: b1 :: b2 :: b3 :: rest, hB => exact (hB b0 b1 b2 b3 rest rfl).elim
    | [], _ => rfl
    | [_], _ | [_, _], _ | [_, _, _], _ => simp at h

/-! ### DIGEST -/

/-- Byte `4i + j` of the digest is byte `j` of DIGEST[i] (R56). -/
theorem digestBytes_getElem? (s : State) (i : Fin 8) (j : Fin 4) :
    (digestBytes s)[4 * i.val + j.val]? = some (byteOfWord s.digest[i] j.val) :=
  bytesLe_getElem? (by simp) j

theorem digestBytes_take_four (s : State) :
    (digestBytes s).take 4 = [byteOfWord s.digest[0] 0, byteOfWord s.digest[0] 1,
      byteOfWord s.digest[0] 2, byteOfWord s.digest[0] 3] := by
  have hfirst : s.digest.toList.take 1 = [s.digest[0]] := by
    simp [List.take_one, List.head?_eq_getElem?]
  rw [digestBytes, bytesLe_take _ 1, hfirst]
  rfl

/-- Settles O36: word by word and byte by byte, and R56's example from the first word of DIGEST. -/
theorem wordsAndBytesAreInverse : Obligations.WordsAndBytesAreInverse := by
  refine ⟨fun B n i hlen hi => wordsLe_getElem? (by omega), fun W i j w h => bytesLe_getElem? h j,
    wordsLe_bytesLe, fun B n hlen => bytesLe_wordsLe ⟨n, hlen⟩, fun s => ⟨digestBytes_length s,
      digestBytes_getElem? s, digestBytes_getElem? s 0 0, fun h => ?_⟩⟩
  rw [digestBytes_take_four, h]
  decide

/-! ### CHUNK_BUF -/

/-- The word the host writes for four bytes of a chunk is the word they came from. -/
theorem chunkWord_bytesLe {W : List Word} {k : Nat} {w : Word} (h : W[k]? = some w) :
    chunkWord (bytesLe W) k = w := by
  have hk : k < W.length := (List.getElem?_eq_some_iff.mp h).1
  have hword := wordsLe_getElem? (B := bytesLe W) (i := k) (by simp; omega)
  rw [wordsLe_bytesLe, h] at hword
  exact (Option.some_inj.mp hword).symm

/-- Every block of a full chunk has 64 bytes. -/
theorem blen_full (j : Nat) : blen Config.chunkBytes j = 64 := by
  unfold blen
  split <;> rfl

/-- Block `j` of a full chunk is its words from `16j` (R130). -/
theorem chunkBlock_bytesLe {W : List Word} (hlen : W.length = 256) (j : Nat) :
    chunkBlock (bytesLe W) j = blockOfWords ((W.drop (16 * j)).take 16) := by
  have hbytes : (bytesLe W).length = Config.chunkBytes := by simp [hlen]
  have hblock : ((bytesLe W).drop (64 * j)).take 64 = bytesLe ((W.drop (16 * j)).take 16) := by
    rw [← bytesLe_take, ← bytesLe_drop, ← Nat.mul_assoc]
  simp [chunkBlock, hbytes, blen_full, hblock]

/-- Settles O37: the chunk is the byte form of the buffer. -/
theorem chunkBufferByteOrder : Obligations.ChunkBufferByteOrder := by
  intro s ws hbuf
  have hchunk : chunkBytes s 1024 = bytesLe ws.toList := chunkBytes_full hbuf
  rw [hchunk]
  refine ⟨fun k j => bytesLe_getElem? (by simp) j, fun k => chunkWord_bytesLe (by simp), fun j i => ?_⟩
  rw [chunkBlock_bytesLe (by simp)]
  simp [blockOfWords, show 16 * j.val + i.val < 256 by omega]

end Sys2Proof.Machine
end

section
/-! PROOFS. When an access is refused (20_memory.md R50, R52): the map's offsets, the directions it allows, and
where the window stands. -/

namespace Sys2Proof.Machine

/-! ### The mapped offsets -/

/-- The offsets at which the map has no register: outside the window, misaligned or reserved
(R52 (a), (b), (c)). -/
def UnmappedOffset (off : Nat) : Prop := off ≥ 0x800 ∨ off % 4 ≠ 0 ∨ ReservedOffset off

theorem not_unmappedOffset_regOffset (r : Reg) : ¬ UnmappedOffset (regOffset r) := by
  cases r <;> simp only [UnmappedOffset, ReservedOffset, regOffset] <;> omega

/-- Inside the window every aligned offset that is not reserved is some register's. -/
theorem exists_regOffset {off : Nat} (h : ¬ UnmappedOffset off) : ∃ r, regOffset r = off := by
  simp only [UnmappedOffset, ReservedOffset] at h
  by_cases hstatus : off < 0x014
  · obtain rfl | rfl | rfl | rfl | rfl : off = 0x000 ∨ off = 0x004 ∨ off = 0x008 ∨ off = 0x00C
        ∨ off = 0x010 := by omega
    · exact ⟨.cmd, rfl⟩
    · exact ⟨.status, rfl⟩
    · exact ⟨.chunkCountLo, rfl⟩
    · exact ⟨.chunkCountHi, rfl⟩
    · exact ⟨.stackInfo, rfl⟩
  by_cases hdigest : off < 0x040
  · exact ⟨.digest ⟨(off - 0x020) / 4, by omega⟩, by simp only [regOffset]; omega⟩
  by_cases hcvIn : off < 0x060
  · exact ⟨.cvIn ⟨(off - 0x040) / 4, by omega⟩, by simp only [regOffset]; omega⟩
  by_cases hscalar : off < 0x070
  · obtain rfl | rfl | rfl | rfl : off = 0x060 ∨ off = 0x064 ∨ off = 0x068 ∨ off = 0x06C := by omega
    · exact ⟨.counterLo, rfl⟩
    · exact ⟨.counterHi, rfl⟩
    · exact ⟨.blockLen, rfl⟩
    · exact ⟨.flags, rfl⟩
  by_cases hmsg : off < 0x0C0
  · exact ⟨.msg ⟨(off - 0x080) / 4, by omega⟩, by simp only [regOffset]; omega⟩
  by_cases hout : off < 0x100
  · exact ⟨.out ⟨(off - 0x0C0) / 4, by omega⟩, by simp only [regOffset]; omega⟩
  · exact ⟨.chunkBuf ⟨(off - 0x400) / 4, by omega⟩, by simp only [regOffset]; omega⟩

theorem regAt_eq_none_iff {off : Nat} : regAt off = none ↔ UnmappedOffset off := by
  constructor
  · intro hnone
    by_contra h
    obtain ⟨r, rfl⟩ := exists_regOffset h
    simp at hnone
  · intro h
    by_contra hsome
    obtain ⟨r, hr⟩ := Option.ne_none_iff_exists'.mp hsome
    exact not_unmappedOffset_regOffset r (regOffset_of_regAt hr ▸ h)

/-! ### The directions -/

/-- CMD cannot be read, and the registers that R30 marks R cannot be written (R52 (d)). -/
theorem allows_eq_false_iff (d : Dir) (r : Reg) :
    allows d r = false ↔
      (d = .read ∧ regOffset r = 0x000) ∨ (d = .write ∧ ReadOnlyOffset (regOffset r)) := by
  cases d <;> cases r <;> simp [allows, ReadOnlyOffset, regOffset] <;> omega

/-! ### A refused access -/

/-- An access is refused by its width, by the map, by its direction or by a command in flight. -/
theorem access_eq_error_iff {s : State} {d : Dir} {off width : Nat} :
    access s d off width = .error .busError ↔
      width ≠ 32 ∨ regAt off = none
        ∨ ∃ r, regAt off = some r
          ∧ (allows d r = false ∨ (s.busy = true ∧ ¬ (d = .read ∧ r = .status))) := by
  unfold access
  split
  · next hw => simp [hw]
  · next hw =>
    split
    · next hr => simp [hr]
    · next r hr =>
      split
      · next ha => simp [hr, ha]
      · next ha =>
        split
        · next hb => simpa [hr] using .inr (.inr ⟨hb.1, by tauto⟩)
        · next hb => simp [hr, hw, ha]; tauto

/-- An access is refused exactly under R52's conditions. -/
theorem access_eq_error_iff_condition (s : State) (d : Dir) (off width : Nat) :
    access s d off width = .error .busError ↔ BusErrorCondition s d off width := by
  have hcondition : BusErrorCondition s d off width ↔
      width ≠ 32 ∨ UnmappedOffset off ∨ ((d = .read ∧ off = 0x000) ∨ (d = .write ∧ ReadOnlyOffset off))
        ∨ (s.busy = true ∧ ¬ (d = .read ∧ off = 0x004)) := by
    simp only [BusErrorCondition, UnmappedOffset]
    tauto
  rw [access_eq_error_iff, regAt_eq_none_iff, hcondition]
  by_cases hmap : UnmappedOffset off
  · simp [hmap]
  · obtain ⟨r, rfl⟩ := exists_regOffset hmap
    have hstatus : regOffset r = 0x004 ↔ r = .status := regOffset_injective.eq_iff (b := .status)
    simp [hmap, hstatus, allows_eq_false_iff]

theorem regWrite_of_regAt_none {s : State} {off : Nat} (h : regAt off = none) (width : Nat) (v : Word) :
    regWrite s off width v = .error .busError := by
  simp [regWrite, access, h]

/-! ### BASE -/

theorem windowOffset_base_add (off : Nat) : windowOffset (Config.base + off) = some off := by
  simp [windowOffset]

theorem busRead_base_add (s : State) (off width : Nat) :
    busRead s (Config.base + off) width = regRead s off width := by
  unfold busRead
  rw [windowOffset_base_add]

theorem busWrite_base_add (s : State) (off width : Nat) (v : Word) :
    busWrite s (Config.base + off) width v = regWrite s off width v := by
  unfold busWrite
  rw [windowOffset_base_add]

/-- An address outside the window has no offset, or one at which there is no register. -/
theorem regAt_windowOffset_outside {a off : Nat} (ha : a < Config.base ∨ Config.base + 0x800 ≤ a)
    (h : windowOffset a = some off) : regAt off = none := by
  obtain ⟨hle, rfl⟩ : Config.base ≤ a ∧ a - Config.base = off := by simpa [windowOffset] using h
  exact regAt_eq_none_iff.mpr (.inl (by omega))

theorem busRead_outside {a : Nat} (ha : a < Config.base ∨ Config.base + 0x800 ≤ a) (s : State)
    (width : Nat) : busRead s a width = .error .busError := by
  unfold busRead
  split
  · rfl
  · next off h => exact regRead_of_regAt_none (regAt_windowOffset_outside ha h) width

theorem busWrite_outside {a : Nat} (ha : a < Config.base ∨ Config.base + 0x800 ≤ a) (s : State)
    (width : Nat) (v : Word) : busWrite s a width v = .error .busError := by
  unfold busWrite
  split
  · rfl
  · next off h => exact regWrite_of_regAt_none (regAt_windowOffset_outside ha h) width v

theorem base_mod_window : Config.base % 0x800 = 0 :=
  Nat.mod_eq_zero_of_dvd (Dvd.intro_left Config.windowIndex rfl)

/-- Settles O49: an address is its offset above BASE, and outside the window there is no register. -/
theorem windowStandsAtBase : Obligations.WindowStandsAtBase :=
  ⟨base_mod_window, fun s width v =>
    ⟨fun off => ⟨busRead_base_add s off width, busWrite_base_add s off width v⟩,
      fun _ ha => ⟨busRead_outside ha s width, busWrite_outside ha s width v⟩⟩⟩

end Sys2Proof.Machine
end

section
/-! PROOFS. The host's turn (20_memory.md R52, R57, R58, R60, R62): the state its operation works on, the equation
of each operation, and the steps that are not its own. -/

namespace Sys2Proof.Machine

/-! ### Whose step it is -/

/-- The state on which the host's operation works: one turn of the latency of a command in flight has passed
(log entry 2). -/
def State.countTurn (s : State) : State :=
  { s with latencyLeft := if s.busy then s.latencyLeft - 1 else s.latencyLeft }

section
variable (s : State)

@[simp] theorem State.countTurn_busy : s.countTurn.busy = s.busy := rfl
@[simp] theorem State.countTurn_hostProgram : s.countTurn.hostProgram = s.hostProgram := rfl

end

theorem countTurn_of_idle {s : State} (hb : s.busy = false) : s.countTurn = s := by
  unfold State.countTurn
  rw [if_neg (by simp [hb])]

theorem countTurn_of_busy {s : State} (hb : s.busy = true) : s.countTurn = s.countDown := by
  unfold State.countTurn
  rw [if_pos hb]
  rfl

/-- When the host is to move the step is its turn. -/
theorem step_of_hostMoves {s : State} (h : s.HostMoves) : step s = hostTurn s.countTurn := by
  obtain ⟨hr, hmove⟩ := h
  cases hb : s.busy with
  | false => rw [countTurn_of_idle hb, step_eq_hostTurn hr hb]
  | true =>
    rw [countTurn_of_busy hb, step_eq_hostTurn_busy hr hb (hmove.resolve_left (by simp [hb]))]

theorem step_idle {s : State} (hm : s.HostMoves) (hp : s.hostProgram = []) :
    step s = .next s.countTurn :=
  (step_of_hostMoves hm).trans (hostTurn_idle hp)

theorem step_of_hostMoves_cons {s : State} {op : HostOp} {rest : List HostOp} (h : s.HostMoves)
    (hp : s.hostProgram = op :: rest) : step s = hostOp s.countTurn op rest :=
  (step_of_hostMoves h).trans (hostTurn_cons hp)

/-- Everything a step that is not the host's can do. -/
theorem step_of_not_hostMoves {s t : State} (hm : ¬ s.HostMoves) (h : step s = .next t) :
    (s.resetInput = true ∧ t = s.hardwareReset) ∨ completeCommand s = .next t
      ∨ t = s.recordFault .invariantViolation := by
  rcases step_next h with hreset | ⟨hr, hturn⟩
  · exact .inl hreset
  · rcases turn_next hturn with ⟨-, -, -, hc⟩ | ⟨-, -, -, ht⟩ | ⟨-, hl, -⟩ | ⟨hb, -⟩
    · exact .inr (.inl hc)
    · exact .inr (.inr ht)
    · exact absurd ⟨hr, .inr hl⟩ hm
    · exact absurd ⟨hr, .inl hb⟩ hm

/-! ### The equation of each operation -/

section
variable {s : State} {off width : Nat} {v : Word} {rest : List HostOp}

theorem hostOp_wr_ok {u : State} (h : regWrite s off width v = .ok u) :
    hostOp s (.wr off width v) rest = .next (u.setProgram rest) := by
  simp [hostOp, h]

theorem hostOp_wr_error {f : Fault} (h : regWrite s off width v = .error f) :
    hostOp s (.wr off width v) rest = .next (s.recordFault f) := by
  simp [hostOp, h]

theorem hostOp_rd_ok {n : Nat} (h : regRead s off width = .ok v) :
    hostOp s (.rd n off width) rest = .next (((s.setVar n v).setProgram rest).noteRead off) := by
  simp [hostOp, h]

theorem hostOp_rd_error {n : Nat} {f : Fault} (h : regRead s off width = .error f) :
    hostOp s (.rd n off width) rest = .next (s.recordFault f) := by
  simp [hostOp, h]

theorem hostOp_wait :
    hostOp s .wait rest = .next ((s.setVar statusVar (statusWord s)).setProgram
      (if s.busy then .wait :: rest else rest)) := by
  simp only [hostOp, regRead_status, statusWord_busy]

theorem errBits_eq_zero_iff (e : ErrCode) : errBits e = 0 ↔ e = .ok := by
  cases e <;> decide

/-- CHK_OK assigns h_s; it goes on if ERR is OK and otherwise ends the program as failed (R77). -/
theorem hostOp_chkOk :
    hostOp s .chkOk rest = .next { s with
      hostVars := assign 0 (statusWord s) s.hostVars
      hostProgram := if s.err = .ok then rest else []
      hostFailed := s.hostFailed || s.err != .ok } := by
  have hfailed : (s.hostFailed || s.err != .ok) = if s.err = .ok then s.hostFailed else true := by
    by_cases he : s.err = .ok <;> simp [he]
  simp only [hostOp, regRead_status, statusWord_err, errBits_eq_zero_iff, hfailed]
  split <;> rfl

end

/-! ### Accesses while a turn of the latency passes -/

theorem access_countTurn_refused {s : State} {d : Dir} {off width : Nat} (h : BusErrorCondition s d off width) :
    access s.countTurn d off width = .error .busError :=
  (access_congr rfl d off width).trans ((access_eq_error_iff_condition s d off width).mpr h)

/-- Settles O40: the conditions are those of the access, and a refused access is recorded. -/
theorem busErrorConditions : Obligations.BusErrorConditions := by
  refine ⟨access_eq_error_iff_condition, fun s op rest hm hp hop => ?_⟩
  rw [step_of_hostMoves_cons hm hp]
  rcases hop with ⟨n, off, width, rfl, hrefused⟩ | ⟨off, width, v, rfl, hrefused⟩
  · exact hostOp_rd_error (by rw [regRead, access_countTurn_refused hrefused])
  · exact hostOp_wr_error (by rw [regWrite, access_countTurn_refused hrefused])

/-- The latency cannot be read: while a command is in flight only STATUS can. -/
theorem regRead_countTurn (s : State) (off width : Nat) :
    regRead s.countTurn off width = regRead s off width := by
  cases hb : s.busy with
  | false => rw [countTurn_of_idle hb]
  | true =>
    unfold regRead
    rw [access_congr s.countTurn_busy]
    split
    · rfl
    · next r hr =>
      obtain ⟨-, -, -, hstatus⟩ := access_ok hr
      rw [(hstatus hb).2]
      rfl

/-- No write is accepted while a command is in flight (R52 (e)). -/
theorem idle_of_regWrite_ok {s u : State} {off width : Nat} {v : Word}
    (h : regWrite s off width v = .ok u) : s.busy = false := by
  obtain ⟨r, haccess, -⟩ := regWrite_ok h
  obtain ⟨-, -, -, hidle⟩ := access_ok haccess
  by_contra hb
  cases (hidle (by simpa using hb)).1

theorem unwrittenAt_countTurn (s : State) (off : Nat) : unwrittenAt s.countTurn off = unwrittenAt s off := by
  have : regCell s.countTurn = regCell s := by
    funext r
    cases r <;> rfl
  simp [unwrittenAt, this]

/-- All that recording a read does. -/
theorem noteRead_eq (s : State) (off : Nat) :
    s.noteRead off = { s with
      faulted := if unwrittenAt s off then some (s.faulted.getD .unwrittenRead) else s.faulted
      hostProgram := if unwrittenAt s off then [] else s.hostProgram } := by
  cases hu : unwrittenAt s off with
  | false => exact noteRead_written hu
  | true => exact noteRead_unwritten hu

/-- Settles O42: the variable is assigned, and the read is recorded if the cell is unwritten. -/
theorem readsHaveNoSideEffect : Obligations.ReadsHaveNoSideEffect := by
  intro s n off width v rest hm hp hread
  refine ⟨_, (step_of_hostMoves_cons hm hp).trans (hostOp_rd_ok ((regRead_countTurn s off width).trans hread)),
    ?_⟩
  rw [noteRead_eq, unwrittenAt_setVar_setProgram, unwrittenAt_countTurn]
  exact ⟨lookup_assign_self n v _, fun k hk => lookup_assign_other (Ne.symm hk) v _, rfl⟩

/-! ### A command in flight keeps its operands and its word -/

/-- While a command is in flight an operation of the host changes nothing of the block but its reset input. -/
theorem hostOp_frame_of_busy {s t : State} {op : HostOp} {rest : List HostOp} (hb : s.busy = true)
    (h : hostOp s op rest = .next t) :
    t = { s with
      faulted := t.faulted, resetInput := t.resetInput, hostProgram := t.hostProgram
      hostVars := t.hostVars, hostFailed := t.hostFailed } := by
  rcases hostOp_next h with ⟨off, width, v, u, -, hu, -⟩ | ⟨n, off, width, v, -, -, rfl⟩ | ⟨-, rfl⟩
    | ⟨-, rfl⟩ | ⟨-, rfl | rfl⟩ | ⟨-, rfl⟩
  · exact absurd (idle_of_regWrite_ok hu) (by simp [hb])
  · rw [noteRead_frame]
    rfl
  all_goals rfl

/-- A completion changes what its command changes and BUSY. -/
theorem completeCommand_frame {s t : State} (h : completeCommand s = .next t) :
    t = { s with
      lifecycle := t.lifecycle, processedChunks := t.processedChunks, stack := t.stack
      digest := t.digest, out := t.out, err := t.err, busy := false
      faulted := t.faulted, hostProgram := t.hostProgram } := by
  rcases completeCommand_next h with ⟨e, -, rfl⟩ | ⟨i, u, -, hu, rfl⟩
  · rfl
  · exact congrArg State.finishCommand (exec_frame hu)

/-- Settles O51: a turn of the host and a completion both leave the operands and the word in flight. -/
theorem operandsStayWhileBusy : Obligations.OperandsStayWhileBusy := by
  intro s t hr hb h
  by_cases hm : s.HostMoves
  · cases hp : s.hostProgram with
    | nil =>
      cases (step_idle hm hp).symm.trans h
      exact ⟨rfl, rfl, rfl⟩
    | cons op rest =>
      rw [step_of_hostMoves_cons hm hp] at h
      rw [hostOp_frame_of_busy (by simpa using hb) h]
      exact ⟨rfl, rfl, rfl⟩
  · rcases step_of_not_hostMoves hm h with ⟨hreset, -⟩ | hc | rfl
    · simp [hr] at hreset
    · rw [completeCommand_frame hc]
      exact ⟨rfl, rfl, rfl⟩
    · exact ⟨rfl, rfl, rfl⟩

/-! ### The host's program -/

/-- The step is no operation of the host: it leaves the program, unless it ends it with a fault recorded. -/
def State.LeavesProgram (s t : State) : Prop :=
  t.hostProgram = s.hostProgram ∨ (t.hostProgram = [] ∧ t.faulted ≠ none)

theorem recordFault_leavesProgram (s : State) (f : Fault) : s.LeavesProgram (s.recordFault f) :=
  .inr ⟨rfl, by simp⟩

theorem noteOperands_leavesProgram (s : State) (cells : List (Option Word)) :
    s.LeavesProgram (s.noteOperands cells) := by
  unfold State.noteOperands
  split
  · exact .inl rfl
  · exact recordFault_leavesProgram s _

theorem exec_leavesProgram {i : Instr} {s t : State} (h : exec i s = .next t) : s.LeavesProgram t := by
  cases i with
  | reset => cases h; exact .inl rfl
  | compress =>
    rcases execCompress_cases s with ⟨-, -, he⟩ | ⟨-, he⟩ <;> cases he.symm.trans h
    · exact .inl rfl
    · exact noteOperands_leavesProgram s (compressCells s)
  | pushChunk =>
    rcases execPushChunk_cases s with ⟨c, -, he, -⟩ | ⟨-, -, -, he⟩ <;> cases he.symm.trans h
    · exact .inl rfl
    · exact noteOperands_leavesProgram s (chunkCells s Config.chunkBytes)
  | finalize len =>
    rcases execFinalize_cases len s with ⟨c, -, he, -⟩ | ⟨-, -, -, he⟩ <;> cases he.symm.trans h
    · exact .inl rfl
    · exact noteOperands_leavesProgram s (chunkCells s len.toNat)

theorem completeCommand_leavesProgram {s t : State} (h : completeCommand s = .next t) :
    s.LeavesProgram t := by
  rcases completeCommand_next h with ⟨e, -, rfl⟩ | ⟨i, u, -, hu, rfl⟩
  · exact .inl rfl
  · exact exec_leavesProgram (t := u) hu

theorem step_leavesProgram {s t : State} (hm : ¬ s.HostMoves) (h : step s = .next t) :
    s.LeavesProgram t := by
  rcases step_of_not_hostMoves hm h with ⟨-, rfl⟩ | hc | rfl
  · exact .inl rfl
  · exact completeCommand_leavesProgram hc
  · exact recordFault_leavesProgram s _

/-- An operation of the host stays first in the program, is taken off it, or ends it. -/
theorem hostOp_program {s t : State} {op : HostOp} {rest : List HostOp} (h : hostOp s op rest = .next t) :
    t.hostProgram = op :: rest ∨ t.hostProgram = rest
      ∨ (t.hostProgram = [] ∧ (t.faulted ≠ none ∨ t.hostFailed = true)) := by
  rcases hostOp_next h with ⟨off, width, v, u, -, -, rfl⟩ | ⟨n, off, width, v, -, -, rfl⟩ | ⟨-, rfl⟩
    | ⟨rfl, rfl⟩ | ⟨-, rfl | rfl⟩ | ⟨-, rfl⟩
  · exact .inr (.inl rfl)
  · rw [noteRead_eq]
    split
    · exact .inr (.inr ⟨rfl, .inl (by simp)⟩)
    · exact .inr (.inl rfl)
  · exact .inr (.inr ⟨rfl, .inl (by simp)⟩)
  · simp only [State.setProgram_hostProgram]
    split
    · exact .inl rfl
    · exact .inr (.inl rfl)
  · exact .inr (.inl rfl)
  · exact .inr (.inr ⟨rfl, .inr rfl⟩)
  · exact .inr (.inl rfl)

/-- The program after any step. -/
theorem step_program {s t : State} (h : step s = .next t) :
    t.hostProgram = s.hostProgram ∨ t.hostProgram = s.hostProgram.tail
      ∨ (t.hostProgram = [] ∧ (t.faulted ≠ none ∨ t.hostFailed = true)) := by
  by_cases hm : s.HostMoves
  · cases hp : s.hostProgram with
    | nil =>
      cases (step_idle hm hp).symm.trans h
      exact .inl hp
    | cons op rest => exact hostOp_program ((step_of_hostMoves_cons hm hp).symm.trans h)
  · exact (step_leavesProgram hm h).imp_right fun ⟨hnil, hfault⟩ => .inr ⟨hnil, .inl hfault⟩

/-! ### The effect of the first operation -/

/-- A write that records no fault was accepted, with nothing in flight, and it is the whole step. -/
theorem hostOp_wr_clean {s t : State} {off width : Nat} {v : Word} {rest : List HostOp}
    (h : hostOp s.countTurn (.wr off width v) rest = .next t) (hclean : t.faulted = none) :
    ∃ u, regWrite s off width v = .ok u ∧ t = u.setProgram rest := by
  cases hw : regWrite s.countTurn off width v with
  | error f =>
    cases (hostOp_wr_error hw).symm.trans h
    simp at hclean
  | ok u =>
    cases (hostOp_wr_ok hw).symm.trans h
    rw [countTurn_of_idle (by simpa using idle_of_regWrite_ok hw)] at hw
    exact ⟨u, hw, rfl⟩

/-- A read that records no fault was accepted, and the cell read, if any, was written. -/
theorem hostOp_rd_clean {s t : State} {n off width : Nat} {rest : List HostOp}
    (h : hostOp s.countTurn (.rd n off width) rest = .next t) (hclean : t.faulted = none) :
    ∃ v, regRead s off width = .ok v ∧ t = (s.countTurn.setVar n v).setProgram rest := by
  cases hread : regRead s.countTurn off width with
  | error f =>
    cases (hostOp_rd_error hread).symm.trans h
    simp at hclean
  | ok v =>
    cases (hostOp_rd_ok hread).symm.trans h
    refine ⟨v, (regRead_countTurn s off width).symm.trans hread, noteRead_written ?_⟩
    by_contra hu
    simp [noteRead_unwritten (by simpa using hu)] at hclean

/-- Settles O55: the program after any step, and the equation of each operation in the host's turn. -/
theorem hostOperationsRunInOrder : Obligations.HostOperationsRunInOrder := by
  intro s t h
  refine ⟨step_program h, fun hm => (step_leavesProgram hm h).imp_right And.right, fun hm hp => ?_,
    fun op rest hm hp hclean => ?_⟩
  · cases (step_idle hm hp).symm.trans h
    rfl
  · rw [step_of_hostMoves_cons hm hp] at h
    cases op with
    | wr off width v => exact hostOp_wr_clean h hclean
    | rd n off width => exact hostOp_rd_clean h hclean
    | wait =>
      cases hostOp_wait.symm.trans h
      rfl
    | chkOk =>
      cases hostOp_chkOk.symm.trans h
      rfl
    | hwReset =>
      cases h
      rfl

end Sys2Proof.Machine
end

section
/-! PROOFS. The command word (30_encoding.md R70 to R75): a word is its four fields, the decoder answers a command
exactly on that command's word, and a word of R73 or R74 is no command's. -/

namespace Sys2Proof.Machine

/-! ### The fields of a word -/

section
variable (len : BitVec 11) (op : BitVec 4)

@[simp] theorem opField_commandWord : opField (commandWord len op) = op := by
  ext i hi
  simp [opField, commandWord, hi, show i < 8 by omega, show i < 32 by omega]

@[simp] theorem rsv0Field_commandWord : rsv0Field (commandWord len op) = 0 := by
  ext i hi
  simp [rsv0Field, commandWord, show 4 + i < 8 by omega]

@[simp] theorem lenField_commandWord : lenField (commandWord len op) = len := by
  ext i hi
  simp [lenField, commandWord, hi, show 8 + i < 32 by omega, BitVec.getLsbD_of_ge op (8 + i) (by omega)]

@[simp] theorem rsv1Field_commandWord : rsv1Field (commandWord len op) = 0 := by
  ext i hi
  simp [rsv1Field, commandWord, BitVec.getLsbD_of_ge op (19 + i) (by omega),
    BitVec.getLsbD_of_ge len (19 + i - 8) (by omega)]

end

theorem getLsbD_eq_of_extractLsb'_eq {w w' : Word} {start n i : Nat}
    (h : w.extractLsb' start n = w'.extractLsb' start n) (hlo : start ≤ i) (hhi : i < start + n) :
    w.getLsbD i = w'.getLsbD i := by
  have hbit := congrArg (fun x => x.getLsbD (i - start)) h
  simpa [show i - start < n by omega, Nat.add_sub_cancel' hlo] using hbit

/-- The four fields cover all 32 bits (R70). -/
theorem word_eq_of_fields {w w' : Word} (hop : opField w = opField w') (hrsv0 : rsv0Field w = rsv0Field w')
    (hlen : lenField w = lenField w') (hrsv1 : rsv1Field w = rsv1Field w') : w = w' := by
  refine BitVec.eq_of_getLsbD_eq fun i hi => ?_
  by_cases h4 : i < 4
  · exact getLsbD_eq_of_extractLsb'_eq hop (by omega) (by omega)
  by_cases h8 : i < 8
  · exact getLsbD_eq_of_extractLsb'_eq hrsv0 (by omega) (by omega)
  by_cases h19 : i < 19
  · exact getLsbD_eq_of_extractLsb'_eq hlen (by omega) (by omega)
  · exact getLsbD_eq_of_extractLsb'_eq hrsv1 (by omega) (by omega)

theorem eq_commandWord {w : Word} (hrsv0 : rsv0Field w = 0) (hrsv1 : rsv1Field w = 0) :
    w = commandWord (lenField w) (opField w) :=
  word_eq_of_fields (by simp) (by simpa using hrsv0) (by simp) (by simpa using hrsv1)

/-! ### The decoder -/

theorem decode_encode (i : Instr) : decode (encode i) = .ok i := by
  cases i with
  | reset => simp [decode, encode, withoutLen]
  | compress => simp [decode, encode, withoutLen]
  | pushChunk => simp [decode, encode, withoutLen]
  | finalize len => simp [decode, encode]

/-- A command without LEN is answered only for a word whose LEN is 0 (R73). -/
theorem encode_of_withoutLen {w : Word} {i j : Instr} (hi : encode i = commandWord 0 (opField w))
    (h : withoutLen w i = .ok j) : encode j = commandWord (lenField w) (opField w) := by
  unfold withoutLen at h
  split at h
  · next hlen =>
    cases h
    rw [hi, hlen]
  · cases h

/-- Everything the decoder has found when it answers a command. -/
theorem decode_eq_ok {w : Word} {i : Instr} (h : decode w = .ok i) :
    rsv0Field w = 0 ∧ rsv1Field w = 0 ∧ encode i = commandWord (lenField w) (opField w) := by
  unfold decode at h
  split at h
  · cases h
  · next hrsv =>
    obtain ⟨hrsv0, hrsv1⟩ := not_or.mp hrsv
    refine ⟨not_not.mp hrsv0, not_not.mp hrsv1, ?_⟩
    split at h
    · next hop => exact encode_of_withoutLen (by rw [hop, encode]) h
    split at h
    · next hop => exact encode_of_withoutLen (by rw [hop, encode]) h
    split at h
    · next hop => exact encode_of_withoutLen (by rw [hop, encode]) h
    split at h
    · next hop =>
      cases h
      rw [hop, encode]
    · cases h

/-- Settles O1: the decoder checks every field, and the fields are the whole word. -/
theorem decodeIsInverseOfEncode : Obligations.DecodeIsInverseOfEncode := by
  refine fun w i => ⟨fun h => ?_, fun h => h ▸ decode_encode i⟩
  obtain ⟨hrsv0, hrsv1, hi⟩ := decode_eq_ok h
  exact (eq_commandWord hrsv0 hrsv1).trans hi.symm

/-! ### The legal words -/

/-- R75's form of the word of FINALIZE. -/
theorem encode_finalize (len : BitVec 11) :
    encode (.finalize len) = 0x00000004 ||| len.setWidth 32 <<< 8 := rfl

theorem encode_finalize_ofNat {L : Nat} (hL : L ≤ 2047) :
    encode (.finalize (BitVec.ofNat 11 L)) = 0x00000004 ||| BitVec.ofNat 32 L <<< 8 := by
  have hlen : (BitVec.ofNat 11 L).setWidth 32 = BitVec.ofNat 32 L := by
    apply BitVec.eq_of_toNat_eq
    simp
    omega
  rw [encode_finalize, hlen]

/-- The words of FINALIZE by LEN as a number. -/
theorem exists_decode_finalize_iff {w : Word} {P : Nat → Prop} :
    (∃ len : BitVec 11, decode w = .ok (.finalize len) ∧ P len.toNat)
      ↔ ∃ L : Nat, L ≤ 2047 ∧ P L ∧ w = 0x00000004 ||| BitVec.ofNat 32 L <<< 8 := by
  constructor
  · rintro ⟨len, hdecode, hP⟩
    have hL : len.toNat ≤ 2047 := by omega
    refine ⟨len.toNat, hL, hP, ?_⟩
    rw [← encode_finalize_ofNat hL, BitVec.ofNat_toNat, BitVec.setWidth_eq]
    exact (decodeIsInverseOfEncode w _).mp hdecode
  · rintro ⟨L, hL, hP, rfl⟩
    refine ⟨BitVec.ofNat 11 L, ?_, ?_⟩
    · rw [← encode_finalize_ofNat hL, decode_encode]
    · rwa [BitVec.toNat_ofNat, Nat.mod_eq_of_lt (by omega)]

theorem finalize_wellFormed_iff (len : BitVec 11) :
    (Instr.finalize len).WellFormed ↔ len.toNat ≤ 1024 := by
  simp [Instr.WellFormed, Instr.wellFormed]

theorem exists_decode_wellFormed_iff (w : Word) :
    (∃ i, decode w = .ok i ∧ i.WellFormed)
      ↔ decode w = .ok .reset ∨ decode w = .ok .compress ∨ decode w = .ok .pushChunk
        ∨ ∃ len : BitVec 11, decode w = .ok (.finalize len) ∧ len.toNat ≤ 1024 := by
  constructor
  · rintro ⟨i, hi, hwf⟩
    cases i with
    | reset => exact .inl hi
    | compress => exact .inr (.inl hi)
    | pushChunk => exact .inr (.inr (.inl hi))
    | finalize len => exact .inr (.inr (.inr ⟨len, hi, (finalize_wellFormed_iff len).mp hwf⟩))
  · rintro (h | h | h | ⟨len, h, hlen⟩)
    · exact ⟨_, h, rfl⟩
    · exact ⟨_, h, rfl⟩
    · exact ⟨_, h, rfl⟩
    · exact ⟨_, h, (finalize_wellFormed_iff len).mpr hlen⟩

/-- Settles O2: each word is a command's own, and the word of FINALIZE tells LEN. -/
theorem legalCommandWords : Obligations.LegalCommandWords := by
  intro w
  constructor
  · rw [exists_decode_wellFormed_iff, exists_decode_finalize_iff (P := (· ≤ 1024)),
      decodeIsInverseOfEncode, decodeIsInverseOfEncode, decodeIsInverseOfEncode]
    refine or_congr .rfl (or_congr .rfl (or_congr .rfl (exists_congr fun L => ?_)))
    exact ⟨fun ⟨_, hL, hw⟩ => ⟨hL, hw⟩, fun ⟨hL, hw⟩ => ⟨by omega, hL, hw⟩⟩
  · simp only [finalize_wellFormed_iff]
    rw [exists_decode_finalize_iff (P := fun L => ¬ L ≤ 1024)]
    refine exists_congr fun L => ?_
    exact ⟨fun ⟨hle, hgt, hw⟩ => ⟨by omega, hle, hw⟩, fun ⟨hgt, hle, hw⟩ => ⟨hle, by omega, hw⟩⟩

/-- Settles O4: each word is a command's encoding or fails one check of the decoder. -/
theorem workedWordsDecode : Obligations.WorkedWordsDecode := by
  unfold Obligations.WorkedWordsDecode
  decide

/-! ### The illegal words -/

theorem not_illegalWord_encode (i : Instr) : ¬ IllegalWord (encode i) := by
  cases i with
  | reset => simp [IllegalWord, encode]
  | compress => simp [IllegalWord, encode]
  | pushChunk => simp [IllegalWord, encode]
  | finalize len => simp [IllegalWord, encode]

/-- A word that decodes is the encoding of a command, and no encoding is illegal. -/
theorem decode_of_illegalWord {w : Word} (h : IllegalWord w) : ∃ e, decode w = .error e := by
  cases hd : decode w with
  | error e => exact ⟨e, rfl⟩
  | ok i =>
    obtain rfl := (decodeIsInverseOfEncode w i).mp hd
    exact absurd h (not_illegalWord_encode i)

end Sys2Proof.Machine
end

section
/-! PROOFS. What the step makes of a command word and of a host program: the completion of an illegal word
(30_encoding.md R73, R74), a next state in every case (R78), and the pseudo-instructions (R77). -/

namespace Sys2Proof.Machine

/-! ### A completion -/

theorem step_of_due {s : State} (h : s.Due) : step s = completeCommand s := by
  obtain ⟨hr, hb, hl, ht⟩ := h
  exact step_eq_completeCommand hr hb hl ht

theorem completeCommand_of_error {s : State} {e : DecodeError} (h : decode s.inflight = .error e) :
    completeCommand s = .next { s with err := .illegalCommand, busy := false } := by
  unfold completeCommand
  rw [h]
  rfl

theorem completeCommand_of_ok {s t : State} {i : Instr} (hi : decode s.inflight = .ok i)
    (ht : exec i s = .next t) : completeCommand s = .next { t with busy := false } := by
  unfold completeCommand
  rw [hi]
  simp only [ht]
  rfl

/-- Settles O3: an illegal word does not decode, and its completion raises ILLEGAL_COMMAND alone. -/
theorem illegalWordReportsCodeFour : Obligations.IllegalWordReportsCodeFour := by
  refine ⟨rfl, fun s hdue hillegal => ?_⟩
  obtain ⟨e, he⟩ := decode_of_illegalWord hillegal
  exact (step_of_due hdue).trans (completeCommand_of_error he)

/-! ### Every step answers a next state -/

theorem exec_answers (i : Instr) (s : State) : ∃ t, exec i s = .next t := by
  cases i with
  | reset => exact ⟨_, rfl⟩
  | compress => exact ⟨_, rfl⟩
  | pushChunk =>
    rcases execPushChunk_cases s with ⟨c, -, he, -⟩ | ⟨-, -, -, he⟩
    · exact ⟨_, he⟩
    · exact ⟨_, he⟩
  | finalize len =>
    rcases execFinalize_cases len s with ⟨c, -, he, -⟩ | ⟨-, -, -, he⟩
    · exact ⟨_, he⟩
    · exact ⟨_, he⟩

theorem completeCommand_answers (s : State) : ∃ t, completeCommand s = .next t := by
  cases hd : decode s.inflight with
  | error e => exact ⟨_, completeCommand_of_error hd⟩
  | ok i =>
    obtain ⟨t, ht⟩ := exec_answers i s
    exact ⟨_, completeCommand_of_ok hd ht⟩

theorem engineTurn_answers (s : State) : ∃ t, engineTurn s = .next t := by
  unfold engineTurn
  split
  · exact completeCommand_answers s
  · exact ⟨_, rfl⟩

theorem hostOp_answers (s : State) (op : HostOp) (rest : List HostOp) :
    ∃ t, hostOp s op rest = .next t := by
  cases op with
  | wr off width v =>
    cases hw : regWrite s off width v with
    | error f => exact ⟨_, hostOp_wr_error hw⟩
    | ok u => exact ⟨_, hostOp_wr_ok hw⟩
  | rd n off width =>
    cases hread : regRead s off width with
    | error f => exact ⟨_, hostOp_rd_error hread⟩
    | ok v => exact ⟨_, hostOp_rd_ok hread⟩
  | wait => exact ⟨_, hostOp_wait⟩
  | chkOk => exact ⟨_, hostOp_chkOk⟩
  | hwReset => exact ⟨_, rfl⟩

theorem hostTurn_answers (s : State) : ∃ t, hostTurn s = .next t := by
  cases hp : s.hostProgram with
  | nil => exact ⟨_, hostTurn_idle hp⟩
  | cons op rest =>
    obtain ⟨t, ht⟩ := hostOp_answers s op rest
    exact ⟨t, (hostTurn_cons hp).trans ht⟩

theorem turn_answers (s : State) : ∃ t, turn s = .next t := by
  unfold turn
  split
  · split
    · exact engineTurn_answers s
    · exact hostTurn_answers s.countDown
  · exact hostTurn_answers s

theorem step_answers (s : State) : ∃ t, step s = .next t := by
  unfold step oneStep
  split
  · exact ⟨_, rfl⟩
  · exact turn_answers s

/-- Settles O9: a reset, the turn of either agent and every command answer. -/
theorem noStepIsRefused : Obligations.NoStepIsRefused := ⟨step_answers, exec_answers⟩

/-! ### WAIT, CHK_OK and CMD -/

/-- With nothing in flight the step is the host's operation on the state itself. -/
theorem step_of_hostDoes {s : State} {op : HostOp} {rest : List HostOp} (h : s.HostDoes op rest) :
    step s = hostOp s op rest := by
  obtain ⟨hr, hb, hp⟩ := h
  rw [step_of_hostMoves_cons ⟨hr, .inl hb⟩ hp, countTurn_of_idle hb]

/-- Settles O56: the equations of WAIT and CHK_OK for each value of BUSY and ERR, and the word of each
command. -/
theorem pseudoInstructions : Obligations.PseudoInstructions := by
  refine ⟨fun s rest hdoes => ?_, fun s rest hr hb hl hp => ?_, fun s rest hdoes herr => ?_,
    fun s rest hdoes herr => ?_, by decide, by decide, by decide, fun len => ?_⟩
  · have hb : s.busy = false := hdoes.2.1
    rw [step_of_hostDoes hdoes, hostOp_wait, if_neg (by simp [hb])]
    rfl
  · rw [step_of_hostMoves_cons ⟨hr, .inr hl⟩ hp, countTurn_of_busy hb, hostOp_wait,
      if_pos (show s.countDown.busy = true from hb), ← hp]
    rfl
  · rw [step_of_hostDoes hdoes, hostOp_chkOk, if_pos herr]
    simp [herr]
  · rw [step_of_hostDoes hdoes, hostOp_chkOk, if_neg herr]
    simp [herr]
  · rw [opCmd, encode_finalize]
    rfl

end Sys2Proof.Machine
end

section
/-! PROOFS. The compression function (40_compression.md R100 to R108): G, the round on the words of the working
vector, the schedules, the starting vector and the output. -/

namespace Sys2Proof.Machine

/-! ### The round -/

theorem rotr_eq_rotateRight (x : Word) {n : Nat} (h : n < 32) : rotr x n = x.rotateRight n := by
  rw [BitVec.rotateRight_def, Nat.mod_eq_of_lt h, rotr]

/-- A block written out as its words, so that the calls of G, each of which sets four of them, evaluate. -/
theorem block_eq_words (v : Block) :
    v = #v[v[0], v[1], v[2], v[3], v[4], v[5], v[6], v[7], v[8], v[9], v[10], v[11], v[12], v[13], v[14],
      v[15]] := by
  ext i hi : 1
  interval_cases i <;> rfl

/-! ### The schedules -/

theorem permute_eq_words (m : Block) :
    permute m = #v[m[2], m[6], m[3], m[10], m[7], m[0], m[4], m[13], m[1], m[11], m[12], m[5], m[9], m[14],
      m[15], m[8]] := by
  ext i hi : 1
  interval_cases i <;> simp [permute, perm]

/-- Settles O16: each row of R106's table is the permutation, word by word, of the row before. -/
theorem roundSchedules : Obligations.RoundSchedules := by
  refine ⟨permute_eq_words, ?_⟩
  simp [permute_eq_words]

/-! ### The start and the output -/

/-- The low half of OUT folds the two halves of the vector (R107). -/
theorem outputWords_low (v : Block) (cvIn : Cv) (i : Fin 8) :
    (outputWords v cvIn)[i.val] = v[i.val] ^^^ v[i.val + 8] := by
  fin_cases i <;> rfl

/-- The high half of OUT folds the incoming chaining value into the vector (R107). -/
theorem outputWords_high (v : Block) (cvIn : Cv) (i : Fin 8) :
    (outputWords v cvIn)[i.val + 8] = v[i.val + 8] ^^^ cvIn[i] := by
  fin_cases i <;> rfl

theorem firstHalf_word (o : Block) (i : Fin 8) : (firstHalf o)[i] = o[i.val] := by
  fin_cases i <;> rfl

section
variable (cvIn : Cv) (counter : BitVec 64) (len : BitVec 8) (fl : Word)

theorem initVector_cvIn (i : Fin 8) : (initVector cvIn counter len fl)[i.val] = cvIn[i] := by
  fin_cases i <;> rfl

theorem initVector_iv (i : Fin 4) : (initVector cvIn counter len fl)[8 + i.val] = iv[i.val] := by
  fin_cases i <;> rfl

theorem initVector_counterLo : (initVector cvIn counter len fl)[12].toNat = counter.toNat % 2 ^ 32 := by
  show (counter.extractLsb' 0 32).toNat = _
  simp

theorem initVector_counterHi : (initVector cvIn counter len fl)[13].toNat = counter.toNat / 2 ^ 32 := by
  have := counter.isLt
  show (counter.extractLsb' 32 32).toNat = _
  rw [BitVec.extractLsb'_toNat, Nat.shiftRight_eq_div_pow]
  omega

theorem initVector_len : (initVector cvIn counter len fl)[14].toNat = len.toNat :=
  BitVec.toNat_setWidth_of_le (by decide)

end

/-- Settles O15: the rotations of G, the eight calls of a round on the words of the vector, and the starting
vector and the output word by word. -/
theorem compressionStartsAndEnds : Obligations.CompressionStartsAndEnds := by
  refine ⟨rfl, fun a b c d m0 m1 => ?_, fun v m => ?_, fun _ _ => ⟨rfl, fun _ => rfl⟩,
    fun m cv counter len fl => ⟨initVector_cvIn cv counter len fl, initVector_iv cv counter len fl,
      initVector_counterLo cv counter len fl, initVector_counterHi cv counter len fl,
      initVector_len cv counter len fl, rfl, fun i => ?_, fun i => ?_, fun i => ?_⟩⟩
  · simp [g, rotr_eq_rotateRight]
  · rw [block_eq_words v]
    simp [Machine.round, mixSteps, mix]
  · rw [compressBlock, outputWords_low]
  · rw [compressBlock, outputWords_high]
  · rw [compressCv, firstHalf_word]

end Sys2Proof.Machine
end

section
/-! PROOFS. COMPRESS on written operands (40_compression.md R110): the values its 28 cells hold, whether they
are legal, and what the command makes of them. -/

namespace Sys2Proof.Machine

/-! ### The values of the operand registers -/

/-- A value for each operand register of COMPRESS (R28). -/
structure CompressOperands where
  cvIn : Cv
  counterLo : Word
  counterHi : Word
  blockLen : Word
  flags : Word
  msg : Block

/-- Every operand cell of COMPRESS is written, with these values. -/
structure State.HoldsOperands (s : State) (o : CompressOperands) : Prop where
  cvIn : s.cvIn = o.cvIn.map some
  counterLo : s.counterLo = some o.counterLo
  counterHi : s.counterHi = some o.counterHi
  blockLen : s.blockLen = some o.blockLen
  flags : s.flags = some o.flags
  msg : s.msg = o.msg.map some

/-- The two checks of R110. -/
def CompressOperands.Legal (o : CompressOperands) : Prop :=
  o.blockLen.toNat ≤ Config.blockBytes ∧ flagsLegal o.flags = true

/-- The compression of the operands (R110). -/
def CompressOperands.output (o : CompressOperands) : Block :=
  compressBlock o.msg o.cvIn (BitVec.ofNat 64 (o.counterHi.toNat * 2 ^ 32 + o.counterLo.toNat))
    (o.blockLen.extractLsb' 0 8) o.flags

theorem flagsLegal_iff (f : Word) : flagsLegal f = true ↔ f.extractLsb' 7 25 = 0 := by
  simp [flagsLegal]

section
variable {s : State} {o : CompressOperands} (h : s.HoldsOperands o)
include h

theorem compressCells_written : cellsWritten (compressCells s) = true := by
  simp [cellsWritten, compressCells, h.cvIn, h.counterLo, h.counterHi, h.blockLen, h.flags, h.msg]

theorem blockLenValue_of_holdsOperands : blockLenValue s = o.blockLen := by
  rw [blockLenValue, h.blockLen, operandValue_some]

theorem flagsValue_of_holdsOperands : flagsValue s = o.flags := by
  rw [flagsValue, h.flags, operandValue_some]

theorem compressCounter_of_holdsOperands :
    compressCounter s = BitVec.ofNat 64 (o.counterHi.toNat * 2 ^ 32 + o.counterLo.toNat) := by
  rw [compressCounter, h.counterHi, h.counterLo, operandValue_some, operandValue_some]

theorem compressOutput_of_holdsOperands : compressOutput s = o.output := by
  rw [compressOutput, msgValue_written s h.msg, cvInValue_written s h.cvIn,
    compressCounter_of_holdsOperands h, blockLenValue_of_holdsOperands h, flagsValue_of_holdsOperands h,
    BitVec.setWidth_eq_extractLsb' (by decide), CompressOperands.output]

/-! ### The command -/

/-- On legal operands COMPRESS writes OUT and ERR alone. -/
theorem execCompress_of_legal (hlegal : o.Legal) :
    execCompress s = .next { s with out := o.output, err := .ok } := by
  obtain ⟨hlen, hflags⟩ := hlegal
  rcases execCompress_cases s with ⟨-, hbad, -⟩ | ⟨-, he⟩
  · rw [blockLenValue_of_holdsOperands h, flagsValue_of_holdsOperands h] at hbad
    rcases hbad with hlong | hset
    · omega
    · simp [hflags] at hset
  · rw [he, noteOperands_written s (compressCells_written h), compressOutput_of_holdsOperands h]
    rfl

/-- On operands that are not legal COMPRESS writes ERR alone. -/
theorem execCompress_of_not_legal (hbad : ¬ o.Legal) :
    execCompress s = .next { s with err := .inputError } := by
  rcases execCompress_cases s with ⟨-, -, he⟩ | ⟨hran, -⟩
  · exact he
  · rw [compressCells_written h, blockLenValue_of_holdsOperands h, flagsValue_of_holdsOperands h] at hran
    rcases hran with hunwritten | hlegal
    · cases hunwritten
    · exact absurd hlegal hbad

end

/-- Settles O13: the operands are legal. -/
theorem compressWritesOut : Obligations.CompressWritesOut := by
  intro s cv m lo hi bl fl hcv hlo hhi hbl hfl hm hlen hflags
  have h : s.HoldsOperands ⟨cv, lo, hi, bl, fl, m⟩ := ⟨hcv, hlo, hhi, hbl, hfl, hm⟩
  change execCompress s = _
  rw [execCompress_of_legal h ⟨hlen, (flagsLegal_iff fl).mpr hflags⟩,
    CompressOperands.output]

/-- Settles O14: the operands fail one of the two checks. -/
theorem compressRejectsBadOperands : Obligations.CompressRejectsBadOperands := by
  intro s cv m lo hi bl fl hcv hlo hhi hbl hfl hm hbad
  have h : s.HoldsOperands ⟨cv, lo, hi, bl, fl, m⟩ := ⟨hcv, hlo, hhi, hbl, hfl, hm⟩
  refine execCompress_of_not_legal h fun ⟨hlen, hflags⟩ => ?_
  rcases hbad with hlong | hset
  · exact absurd hlen (by simpa using hlong)
  · exact hset ((flagsLegal_iff fl).mp hflags)

/-! ### Two states with the same operand cells -/

/-- The list of the 28 cells determines each operand register. -/
theorem compressCells_inj {s t : State} (h : compressCells s = compressCells t) :
    s.cvIn = t.cvIn ∧ s.counterLo = t.counterLo ∧ s.counterHi = t.counterHi ∧ s.blockLen = t.blockLen
      ∧ s.flags = t.flags ∧ s.msg = t.msg := by
  obtain ⟨hfront, hmsg⟩ := List.append_inj' h (by simp)
  obtain ⟨hcv, hmid⟩ := List.append_inj' hfront rfl
  simp only [List.cons.injEq, and_true] at hmid
  obtain ⟨hlo, hhi, hbl, hfl⟩ := hmid
  exact ⟨Vector.toList_inj.mp hcv, hlo, hhi, hbl, hfl, Vector.toList_inj.mp hmsg⟩

theorem holdsOperands_of_compressCells_eq {s t : State} {o : CompressOperands}
    (hcells : compressCells s = compressCells t) (h : s.HoldsOperands o) : t.HoldsOperands o := by
  obtain ⟨hcv, hlo, hhi, hbl, hfl, hmsg⟩ := compressCells_inj hcells
  exact ⟨hcv ▸ h.cvIn, hlo ▸ h.counterLo, hhi ▸ h.counterHi, hbl ▸ h.blockLen, hfl ▸ h.flags,
    hmsg ▸ h.msg⟩

theorem exists_map_some_of_written {n : Nat} {xs : Vector (Option Word) n} (h : ∀ c ∈ xs, c ≠ none) :
    ∃ ws : Vector Word n, xs = ws.map some := by
  refine ⟨xs.map (·.getD 0), ?_⟩
  ext i hi : 1
  have hne : xs[i] ≠ none := h _ (Vector.getElem_mem hi)
  obtain ⟨w, hw⟩ := Option.ne_none_iff_exists'.mp hne
  simp [hw]

/-- Written cells hold values. -/
theorem exists_holdsOperands {s : State} (h : ∀ c ∈ compressCells s, c ≠ none) :
    ∃ o, s.HoldsOperands o := by
  simp only [compressCells, List.mem_append, List.mem_cons, Vector.mem_toList_iff] at h
  obtain ⟨cv, hcv⟩ := exists_map_some_of_written fun c (hc : c ∈ s.cvIn) => h c (by simp [hc])
  obtain ⟨m, hm⟩ := exists_map_some_of_written fun c (hc : c ∈ s.msg) => h c (by simp [hc])
  obtain ⟨lo, hlo⟩ := Option.ne_none_iff_exists'.mp (h s.counterLo (by simp))
  obtain ⟨hi, hhi⟩ := Option.ne_none_iff_exists'.mp (h s.counterHi (by simp))
  obtain ⟨bl, hbl⟩ := Option.ne_none_iff_exists'.mp (h s.blockLen (by simp))
  obtain ⟨fl, hfl⟩ := Option.ne_none_iff_exists'.mp (h s.flags (by simp))
  exact ⟨⟨cv, lo, hi, bl, fl, m⟩, hcv, hlo, hhi, hbl, hfl, hm⟩

/-- Settles O17: both states hold the same operands, so both commands write the same OUT or the same error. -/
theorem compressDependsOnOperandsOnly : Obligations.CompressDependsOnOperandsOnly := by
  intro s₁ s₂ hcells hwritten
  obtain ⟨o, h₁⟩ := exists_holdsOperands hwritten
  have h₂ := holdsOperands_of_compressCells_eq hcells h₁
  by_cases hlegal : o.Legal
  · exact ⟨_, _, execCompress_of_legal h₁ hlegal, execCompress_of_legal h₂ hlegal, rfl, fun _ => rfl⟩
  · exact ⟨_, _, execCompress_of_not_legal h₁ hlegal, execCompress_of_not_legal h₂ hlegal, rfl, nofun⟩

end Sys2Proof.Machine
end

section
/-! PROOFS. The frame of each command (40_compression.md R110, 41_chunk_processor.md R136, 42_tree_merger.md R154,
R155): an error changes ERR alone, and looking at the operands changes nothing or records UnwrittenOperand. -/

namespace Sys2Proof.Machine

/-- All that looking at the operands can do. -/
theorem noteOperands_cases (s : State) (cells : List (Option Word)) :
    s.noteOperands cells = s
      ∨ (∃ c ∈ cells, c = none) ∧ s.noteOperands cells = s.recordFault .unwrittenOperand := by
  cases hw : cellsWritten cells with
  | true => exact .inl (noteOperands_written s hw)
  | false => exact .inr ⟨by simpa [cellsWritten] using hw, noteOperands_unwritten s hw⟩

/-- An unwritten cell among those of a chunk of `L` bytes is one of the words that hold the chunk. -/
theorem exists_unwritten_word {s : State} {L : Nat} (h : ∃ c ∈ chunkCells s L, c = none) :
    ∃ k : Fin 256, k.val < wordsFor L ∧ s.chunkBuf[k] = none := by
  obtain ⟨c, hc, rfl⟩ := h
  obtain ⟨k, hk, hnone⟩ := List.mem_take_iff_getElem.mp hc
  simp only [Vector.length_toList, lt_min_iff] at hk
  exact ⟨⟨k, hk.2⟩, hk.1, by simpa using hnone⟩

theorem execCompress_frame {s t : State} (h : execCompress s = .next t) :
    t = { s with out := t.out, err := t.err }
      ∨ (∃ c ∈ compressCells s, c = none) ∧ t = { s.recordFault .unwrittenOperand with
          out := t.out, err := t.err } := by
  rcases execCompress_cases s with ⟨-, -, he⟩ | ⟨-, he⟩ <;> cases he.symm.trans h
  · exact .inl rfl
  · rcases noteOperands_cases s (compressCells s) with hn | ⟨hnone, hn⟩ <;> rw [hn]
    · exact .inl rfl
    · exact .inr ⟨hnone, rfl⟩

theorem execPushChunk_frame {s t : State} (h : execPushChunk s = .next t) :
    t = { s with
        stack := t.stack, processedChunks := t.processedChunks, lifecycle := t.lifecycle, err := t.err }
      ∨ (∃ c ∈ chunkCells s Config.chunkBytes, c = none) ∧ t = { s.recordFault .unwrittenOperand with
          stack := t.stack, processedChunks := t.processedChunks, lifecycle := t.lifecycle, err := t.err } := by
  rcases execPushChunk_cases s with ⟨c, -, he, -⟩ | ⟨-, -, -, he⟩ <;> cases he.symm.trans h
  · exact .inl rfl
  · rcases noteOperands_cases s (chunkCells s Config.chunkBytes) with hn | ⟨hnone, hn⟩ <;> rw [hn]
    · exact .inl rfl
    · exact .inr ⟨hnone, rfl⟩

theorem execFinalize_frame {len : BitVec 11} {s t : State} (h : execFinalize len s = .next t) :
    t = { s with stack := t.stack, digest := t.digest, lifecycle := t.lifecycle, err := t.err }
      ∨ (∃ c ∈ chunkCells s len.toNat, c = none) ∧ t = { s.recordFault .unwrittenOperand with
          stack := t.stack, digest := t.digest, lifecycle := t.lifecycle, err := t.err } := by
  rcases execFinalize_cases len s with ⟨c, -, he, -⟩ | ⟨-, -, -, he⟩ <;> cases he.symm.trans h
  · exact .inl rfl
  · rcases noteOperands_cases s (chunkCells s len.toNat) with hn | ⟨hnone, hn⟩ <;> rw [hn]
    · exact .inl rfl
    · exact .inr ⟨hnone, rfl⟩

/-- Settles O24: the frame of each command, an unwritten cell of CHUNK_BUF being found by its number. -/
theorem commandFrames : Obligations.CommandFrames := by
  refine ⟨fun s t h => ?_, fun s t h => execCompress_frame h, fun s t h => ?_, fun len s t h => ?_⟩
  · cases h
    rfl
  · refine (execPushChunk_frame h).imp_right fun ⟨hnone, ht⟩ => ⟨?_, ht⟩
    obtain ⟨k, -, hk⟩ := exists_unwritten_word hnone
    exact ⟨k, hk⟩
  · exact (execFinalize_frame h).imp_right fun ⟨hnone, ht⟩ => ⟨exists_unwritten_word hnone, ht⟩

end Sys2Proof.Machine
end

section
/-! PROOFS. PUSH_CHUNK (41_chunk_processor.md R136): the error checks in R203's order, and the effect on a written
chunk. -/

namespace Sys2Proof.Machine

/-- Settles O18: the command succeeds, and its state is the one written out. -/
theorem pushChunkPushesAndMerges : Obligations.PushChunkPushesAndMerges := by
  intro s ws hbuf hl hmax hroom
  exact execPushChunk_succeeds hl hmax hroom hbuf

/-- Settles O19: each check that fails ends the command, and past all of them ERR is OK. -/
theorem pushChunkErrorsInOrder : Obligations.PushChunkErrorsInOrder := by
  intro s
  rcases execPushChunk_cases s with
    ⟨c, -, he, ⟨rfl, hl⟩ | ⟨rfl, hl, hmax⟩ | ⟨rfl, hl, hmax, hfull⟩⟩ | ⟨hl, hmax, hroom, he⟩
  · rw [if_pos hl]
    exact he
  · rw [if_neg hl, if_pos hmax]
    exact he
  · rw [if_neg hl, if_neg hmax, if_pos hfull]
    exact he
  · rw [if_neg hl, if_neg hmax, if_neg hroom]
    exact ⟨_, he, rfl⟩

end Sys2Proof.Machine
end

section
/-! PROOFS. The chunk function and the parent function (41_chunk_processor.md R130 to R135, 42_tree_merger.md R150):
the flags of a block bit by bit, the bytes of a block, and the chain of the blocks. -/

namespace Sys2Proof.Machine

/-! ### The flags of a block -/

theorem flagIf_twoPow_getLsbD (c : Bool) {k : Nat} (hk : k < 32) (b : Nat) :
    (flagIf c (BitVec.twoPow 32 k)).getLsbD b = (c && decide (k = b)) := by
  cases c <;> simp [flagIf, hk]

/-- Each bit of a block's flags: bits 0, 1 and 3 by R131, no other. -/
theorem blockFlags_getLsbD (j n : Nat) (root : Bool) (b : Nat) :
    (blockFlags j n root).getLsbD b
      = (j == 0 && decide (0 = b) || j == n - 1 && decide (1 = b) || (j == n - 1 && root) && decide (3 = b)) := by
  have hstart : flagChunkStart = BitVec.twoPow 32 0 := rfl
  have hend : flagChunkEnd = BitVec.twoPow 32 1 := rfl
  have hroot : flagRoot = BitVec.twoPow 32 3 := rfl
  simp only [blockFlags, BitVec.getLsbD_or, hstart, hend, hroot]
  rw [flagIf_twoPow_getLsbD _ (by decide), flagIf_twoPow_getLsbD _ (by decide),
    flagIf_twoPow_getLsbD _ (by decide)]

/-- Settles O35: each bit is read off the flags' bits. -/
theorem blockFlagBits : Obligations.BlockFlagBits := by
  intro j n root _
  simp only [blockFlags_getLsbD]
  refine ⟨by simp, by simp, by simp, fun b h0 h1 h3 => ?_⟩
  simp [h0.symm, h1.symm, h3.symm]

/-! ### The bytes of a block -/

/-- A block of a chunk has the bytes left of it, at most 64. -/
theorem blen_eq_min {L j : Nat} (h : j < nblocks L) : blen L j = min 64 (L - 64 * j) := by
  unfold blen
  split <;> simp only [nblocks] at * <;> omega

/-- The 64 bytes of block `j`, zero-filled (R130). -/
def blockBytes (C : List Byte) (j : Nat) : List Byte :=
  (C.drop (64 * j)).take (blen C.length j) ++ List.replicate (64 - blen C.length j) 0

theorem chunkBlock_eq (C : List Byte) (j : Nat) :
    chunkBlock C j = blockOfWords (wordsLe (blockBytes C j)) := rfl

section
variable {C : List Byte} {j : Nat} (hj : j < nblocks C.length)
include hj

theorem blockBytes_length : (blockBytes C j).length = 64 := by
  rw [blockBytes, List.length_append, List.length_take, List.length_drop, List.length_replicate,
    blen_eq_min hj]
  omega

/-- Byte `k` of a block is byte `64j + k` of the chunk, and 0 past the chunk's end. -/
theorem blockBytes_getD {k : Nat} (hk : k < 64) : (blockBytes C j).getD k 0 = C.getD (64 * j + k) 0 := by
  have hlen : ((C.drop (64 * j)).take (blen C.length j)).length = min 64 (C.length - 64 * j) := by
    simp [blen_eq_min hj]
  by_cases hin : 64 * j + k < C.length
  · rw [blockBytes, List.getD_append _ _ _ _ (by omega)]
    simp [List.getD_eq_getElem?_getD, blen_eq_min hj, hk, hin, show k < C.length - 64 * j by omega]
  · rw [blockBytes, List.getD_append_right _ _ _ _ (by omega), List.getD_eq_default C _ (by omega)]
    simp

/-- Word `i` of a block is made of the four bytes of the chunk from `64j + 4i` (R130, R53). -/
theorem chunkBlock_word (i : Fin 16) :
    (chunkBlock C j)[i] = wordOfBytes (C.getD (64 * j + 4 * i.val) 0) (C.getD (64 * j + 4 * i.val + 1) 0)
      (C.getD (64 * j + 4 * i.val + 2) 0) (C.getD (64 * j + 4 * i.val + 3) 0) := by
  have hword : (wordsLe (blockBytes C j))[i.val]? = some (chunkWord (blockBytes C j) i.val) :=
    wordsLe_getElem? (by rw [blockBytes_length hj]; omega)
  have hblock : (chunkBlock C j)[i] = chunkWord (blockBytes C j) i.val := by
    simp [chunkBlock_eq, blockOfWords, hword]
  rw [hblock, chunkWord, blockBytes_getD hj (by omega), blockBytes_getD hj (by omega),
    blockBytes_getD hj (by omega), blockBytes_getD hj (by omega)]
  rfl

end

/-! ### The chain of blocks -/

/-- The chaining value after the first `k` blocks of a chunk (R132, R133). -/
def chunkChain (C : List Byte) (t : BitVec 64) (root : Bool) (k : Nat) : Cv :=
  (List.range k).foldl (chunkStep C t root) iv

theorem chunkChain_succ (C : List Byte) (t : BitVec 64) (root : Bool) (k : Nat) :
    chunkChain C t root (k + 1) = chunkStep C t root (chunkChain C t root k) k := by
  simp [chunkChain, List.range_succ]

theorem chunkCv_eq_chunkChain (C : List Byte) (t : BitVec 64) (root : Bool) :
    chunkCv C t root = chunkChain C t root (nblocks C.length) := rfl

/-! ### The parent -/

theorem joinCvs_left (left right : Cv) (i : Fin 8) : (joinCvs left right)[i.val] = left[i] := by
  fin_cases i <;> rfl

theorem joinCvs_right (left right : Cv) (i : Fin 8) : (joinCvs left right)[8 + i.val] = right[i] := by
  fin_cases i <;> rfl

/-- The message of a parent is `left ‖ right` (R150). -/
theorem joinCvs_eq_append (left right : Cv) : joinCvs left right = left ++ right := by
  ext i hi : 1
  by_cases h : i < 8
  · exact (joinCvs_left left right ⟨i, h⟩).trans (Vector.getElem_append_left h).symm
  · obtain ⟨k, rfl⟩ := Nat.exists_eq_add_of_le (Nat.le_of_not_lt h)
    have happend := Vector.getElem_append_right (xs := left) (ys := right) hi (by omega)
    simp only [Nat.add_sub_cancel_left] at happend
    exact (joinCvs_right left right ⟨k, by omega⟩).trans happend.symm

/-- Settles O38: the words of a block from its bytes, the chain by its recursion, and the parent's message. -/
theorem chunkAndParentFunctions : Obligations.ChunkAndParentFunctions := by
  refine ⟨fun C t root _ => ⟨fun j i hj => chunkBlock_word hj i, chunkChain C t root, rfl,
    fun j _ => chunkChain_succ C t root j, chunkCv_eq_chunkChain C t root⟩, fun left right flags => ?_⟩
  rw [parentCv, joinCvs_eq_append]

end Sys2Proof.Machine
end

section
/-! PROOFS. FINALIZE (42_tree_merger.md R154): the error checks in R203's order, the bytes of the terminal chunk in
the words of CHUNK_BUF that hold it, and the effect when those words are written. -/

namespace Sys2Proof.Machine

/-! ### The error checks -/

/-- Settles O21: each check that fails ends the command, and past all of them ERR is OK. -/
theorem finalizeErrorsInOrder : Obligations.FinalizeErrorsInOrder := by
  intro s len
  rcases execFinalize_cases len s with
    ⟨c, -, he, ⟨rfl, hl⟩ | ⟨rfl, hl, hlong⟩ | ⟨rfl, hl, hlen, hfull⟩⟩ | ⟨hl, hlen, hroom, he⟩
  · rw [if_pos hl]
    exact he
  · rw [if_neg hl, if_pos hlong]
    exact he
  · rw [if_neg hl, if_neg hlen.not_gt, if_pos hfull]
    exact he
  · rw [if_neg hl, if_neg hlen.not_gt, if_neg hroom]
    exact ⟨_, he, rfl⟩

/-! ### The bytes of a chunk in CHUNK_BUF -/

/-- The words that hold a chunk are written. -/
theorem cellsWritten_chunkCells {s : State} {L : Nat}
    (h : ∀ k : Fin 256, k.val < wordsFor L → s.chunkBuf[k] ≠ none) :
    cellsWritten (chunkCells s L) = true := by
  rw [cellsWritten_iff]
  intro c hc hnone
  obtain ⟨k, hk, hunwritten⟩ := exists_unwritten_word ⟨c, hc, hnone⟩
  exact h k hk hunwritten

/-- A word among those that hold a written chunk has a value. -/
theorem exists_word_of_cellsWritten {s : State} {L : Nat} (h : cellsWritten (chunkCells s L) = true)
    {k : Fin 256} (hk : k.val < wordsFor L) : ∃ w, s.chunkBuf[k] = some w := by
  have hmem : s.chunkBuf[k] ∈ chunkCells s L :=
    List.mem_take_iff_getElem.mpr ⟨k.val, by simpa using hk, by simp⟩
  exact Option.ne_none_iff_exists'.mp ((cellsWritten_iff _).mp h _ hmem)

/-- Byte `4k + j` of a chunk is byte `j` of word `k` of CHUNK_BUF (R55). -/
theorem chunkBytes_getElem? {s : State} {L : Nat} {k : Fin 256} {j : Fin 4} {w : Word}
    (hin : 4 * k.val + j.val < L) (hw : s.chunkBuf[k] = some w) :
    (chunkBytes s L)[4 * k.val + j.val]? = some (byteOfWord w j.val) := by
  rw [chunkBytes, List.getElem?_take_of_lt hin]
  refine bytesLe_getElem? ?_ j
  simpa [chunkWords] using congrArg (operandValue s (0x400 + 4 * k.val)) hw

/-- The bytes of a written chunk are any list of its length that agrees with CHUNK_BUF byte for byte. -/
theorem chunkBytes_eq_of_bytes {s : State} {L : Nat} {C : List Byte} (hL : L ≤ Config.chunkBytes)
    (hw : cellsWritten (chunkCells s L) = true) (hlen : C.length = L)
    (hbytes : ∀ (k : Fin 256) (j : Fin 4) (w : Word), 4 * k.val + j.val < L → s.chunkBuf[k] = some w →
      C[4 * k.val + j.val]? = some (byteOfWord w j.val)) : chunkBytes s L = C := by
  refine List.ext_getElem? fun i => ?_
  by_cases hi : i < L
  · simp only [Config.chunkBytes] at hL
    obtain ⟨k, j, rfl⟩ : ∃ (k : Fin 256) (j : Fin 4), i = 4 * k.val + j.val :=
      ⟨⟨i / 4, by omega⟩, ⟨i % 4, by omega⟩, (Nat.div_add_mod i 4).symm⟩
    obtain ⟨w, hk⟩ := exists_word_of_cellsWritten hw (k := k) (by simp only [wordsFor]; omega)
    rw [chunkBytes_getElem? hi hk, hbytes k j w hi hk]
  · rw [List.getElem?_eq_none (by rw [chunkBytes_length s hL]; omega),
      List.getElem?_eq_none (by omega)]

/-- Two buffers whose bytes agree below `L` hold the same chunk of `L` bytes. -/
theorem chunkBytes_congr {s t : State} {L : Nat} (hL : L ≤ Config.chunkBytes)
    (h : ∀ k : Fin 256, k.val < wordsFor L → ∃ w w', s.chunkBuf[k] = some w ∧ t.chunkBuf[k] = some w'
      ∧ ∀ j : Fin 4, 4 * k.val + j.val < L → byteOfWord w j.val = byteOfWord w' j.val) :
    chunkBytes t L = chunkBytes s L := by
  refine chunkBytes_eq_of_bytes hL (cellsWritten_chunkCells fun k hk => ?_) (chunkBytes_length s hL)
    fun k j v hin hv => ?_
  · obtain ⟨w, w', -, hw', -⟩ := h k hk
    simp [hw']
  · obtain ⟨w, w', hw, hw', hagree⟩ := h k (by simp only [wordsFor]; omega)
    obtain rfl : w' = v := Option.some_inj.mp (hw'.symm.trans hv)
    rw [chunkBytes_getElem? hin hw, hagree j hin]

/-- A written buffer holds the same chunk in any state. -/
theorem chunkBytes_eq_of_chunkBuf_eq {s t : State} {L : Nat} (hbuf : s.chunkBuf = t.chunkBuf)
    (hL : L ≤ Config.chunkBytes) (hw : cellsWritten (chunkCells s L) = true) :
    chunkBytes t L = chunkBytes s L :=
  chunkBytes_congr hL fun k hk => by
    obtain ⟨w, hword⟩ := exists_word_of_cellsWritten hw hk
    exact ⟨w, w, hword, hbuf ▸ hword, fun _ _ => rfl⟩

/-! ### The effect -/

/-- FINALIZE of a written chunk succeeds before FINALIZED while the stack has room. -/
theorem execFinalize_succeeds {s : State} {len : BitVec 11} (hl : s.lifecycle ≠ .finalized)
    (hlen : len.toNat ≤ Config.chunkBytes) (hroom : s.stack.length ≠ Config.stackDepth)
    (hw : cellsWritten (chunkCells s len.toNat) = true) :
    execFinalize len s = .next { s with
      stack := [rootNode s len.toNat], digest := (rootNode s len.toNat).cv
      lifecycle := .finalized, err := .ok } := by
  simp only [execFinalize, if_neg hl, if_neg hlen.not_gt, if_neg hroom, noteOperands_written s hw]
  rfl

/-- What a FINALIZE that ended with ERR OK has found. -/
theorem checks_of_execFinalize_ok {s t : State} {len : BitVec 11} (h : execFinalize len s = .next t)
    (hok : t.err = .ok) : s.lifecycle ≠ .finalized ∧ len.toNat ≤ Config.chunkBytes
      ∧ s.stack.length ≠ Config.stackDepth := by
  rcases execFinalize_cases len s with ⟨c, hc, he, -⟩ | ⟨hl, hlen, hroom, -⟩
  · cases he.symm.trans h
    exact absurd hok hc
  · exact ⟨hl, hlen, hroom⟩

/-- The root depends on the session and on the terminal chunk alone. -/
theorem rootNode_eq {s : State} {L : Nat} {C : List Byte} (h : chunkBytes s L = C) :
    rootNode s L
      = drainOnto { cv := chunkCv C s.processedChunks (s.processedChunks == 0), level := 0 } s.stack := by
  rw [rootNode, terminalCv, h]

/-- Settles O20: the terminal chunk is the one given, and the command succeeds with its root. -/
theorem finalizeLatchesRoot : Obligations.FinalizeLatchesRoot := by
  intro s len C hl hlen hroom hwords hC hbytes
  have hwritten : cellsWritten (chunkCells s len.toNat) = true := cellsWritten_chunkCells hwords
  refine ⟨_, rfl, ?_⟩
  rw [← rootNode_eq (chunkBytes_eq_of_bytes hlen hwritten hC hbytes)]
  exact execFinalize_succeeds hl hlen hroom hwritten

/-- Settles O22: with either buffer the command succeeds on the same terminal chunk. -/
theorem finalizeIgnoresPaddingBytes : Obligations.FinalizeIgnoresPaddingBytes := by
  intro s t len buf h hok hagree
  obtain ⟨hl, hlen, hroom⟩ := checks_of_execFinalize_ok h hok
  have hwritten : cellsWritten (chunkCells s len.toNat) = true := cellsWritten_chunkCells fun k hk => by
    obtain ⟨w, -, hw, -⟩ := hagree k hk
    simp [hw]
  have hwritten' : cellsWritten (chunkCells { s with chunkBuf := buf } len.toNat) = true :=
    cellsWritten_chunkCells fun k hk => by
      obtain ⟨-, w', -, hw', -⟩ := hagree k hk
      simp [hw']
  have hroot : rootNode { s with chunkBuf := buf } len.toNat = rootNode s len.toNat :=
    rootNode_eq (chunkBytes_congr hlen hagree)
  cases (execFinalize_succeeds hl hlen hroom hwritten).symm.trans h
  refine (execFinalize_succeeds (s := { s with chunkBuf := buf }) hl hlen hroom hwritten').trans ?_
  rw [hroot]

end Sys2Proof.Machine
end

section
/-! PROOFS. The drain of FINALIZE (42_tree_merger.md R153, R158): merge by merge, and the root it leaves when the
stack covers the chunks before. -/

namespace Sys2Proof.Machine

/-! ### Merge by merge -/

/-- A drain sets ROOT on the merge with the bottom entry and on no other. -/
theorem drainOnto_append_bottom (right bottom : Node) (above : List Node) :
    drainOnto right (above ++ [bottom])
      = mergeNodes bottom (above.foldl (fun r l => mergeNodes l r (parentFlags false)) right)
          (parentFlags true) := by
  induction above generalizing right with
  | nil => rfl
  | cons left above ih =>
    have hne : (above ++ [bottom]).isEmpty = false := by simp
    rw [List.cons_append, drainOnto_cons, hne, ih, List.foldl_cons]

/-- Settles O23: PARENT alone is 0x04, and PARENT with ROOT is 0x0C. -/
theorem drainSetsRootOnLastMergeOnly : Obligations.DrainSetsRootOnLastMergeOnly :=
  ⟨drainOnto_nil, fun _ _ _ => rfl, fun right bottom above =>
    ⟨drainOnto_append_bottom right bottom above,
      congrArg Node.level (drainOnto_append_bottom right bottom above)⟩⟩

/-! ### The root of the tree -/

theorem splitSize_add {k m : Nat} (hpos : 0 < m) (hle : m ≤ 2 ^ k) : splitSize (2 ^ k + m) = 2 ^ k := by
  have hlog : (2 ^ k + m - 1).log2 = k := by
    rw [Nat.log2_eq_iff (by have := Nat.two_pow_pos k; omega), Nat.pow_succ]
    omega
  rw [splitSize, hlog]

/-- A tree over `2^k` chunks and up to as many more is the parent of the trees over the two parts (R158). -/
theorem treeCv_add (cs : List (List Byte)) {k m : Nat} (hpos : 0 < m) (hle : m ≤ 2 ^ k) (lo : Nat)
    (top : Bool) :
    treeCv cs (2 ^ k + m) lo (2 ^ k + m) top
      = parentCv (treeCv cs (2 ^ k) lo (2 ^ k) false) (treeCv cs m (lo + 2 ^ k) m false)
          (parentFlags top) := by
  have htwo : 0 < 2 ^ k := Nat.two_pow_pos k
  obtain ⟨fuel, hfuel⟩ : ∃ n, 2 ^ k + m = n + 1 := ⟨2 ^ k + m - 1, by omega⟩
  conv_lhs => rw [hfuel, treeCv, if_neg (by omega), ← hfuel, splitSize_add hpos hle, Nat.add_sub_cancel_left]
  rw [treeCv_fuel cs (fuel := fuel) (by omega) le_rfl lo,
    treeCv_fuel cs (fuel := fuel) (by omega) le_rfl (lo + 2 ^ k)]

/-- Draining the tree over the last `m` chunks onto a stack that covers the chunks before leaves the root over
all of them. Each entry's size is at least that of the tree that reaches it, because the levels rise. -/
theorem drainOnto_cv {cs : List (List Byte)} {stack : List Node} {right : Node} {m : Nat}
    (hrise : (levels stack).Pairwise (· < ·)) (hcov : Covers cs stack) (hpos : 0 < m)
    (hle : ∀ left ∈ stack.head?, m ≤ 2 ^ left.level.toNat)
    (hright : right.cv = treeCv cs m (chunksCovered stack) m stack.isEmpty) :
    (drainOnto right stack).cv = treeCv cs (chunksCovered stack + m) 0 (chunksCovered stack + m) true := by
  induction stack generalizing right m with
  | nil => simpa using hright
  | cons left below ih =>
    rw [levels_cons, List.pairwise_cons] at hrise
    obtain ⟨habove, hrise⟩ := hrise
    obtain ⟨hleft, hbelow⟩ := (covers_cons _ _ _).mp hcov
    have hle := hle left rfl
    have hmerged : (mergeNodes left right (parentFlags below.isEmpty)).cv
        = treeCv cs (2 ^ left.level.toNat + m) (chunksCovered below) (2 ^ left.level.toNat + m)
            below.isEmpty := by
      rw [treeCv_add cs hpos hle, ← hleft, Nat.add_comm (chunksCovered below), ← chunksCovered_cons]
      exact congrArg (parentCv left.cv · _) hright
    have hnext : ∀ l ∈ below.head?, 2 ^ left.level.toNat + m ≤ 2 ^ l.level.toNat := fun l hl => by
      have hlt := habove l.level.toNat (List.mem_map_of_mem (List.mem_of_mem_head? hl))
      have := Nat.pow_le_pow_right (n := 2) (by omega) (Nat.succ_le_of_lt hlt)
      rw [Nat.pow_succ] at this
      omega
    rw [drainOnto_cons, ih hrise hbelow (by omega) hnext hmerged, chunksCovered_cons,
      Nat.add_left_comm, Nat.add_assoc]

theorem isEmpty_iff_chunksCovered (stack : List Node) : stack.isEmpty = true ↔ chunksCovered stack = 0 := by
  cases stack <;> simp

/-- FINALIZE on a block that holds `cs` latches the root of the tree over `cs` and the terminal chunk. -/
theorem rootNode_cv_of_holds {s : State} {cs : List (List Byte)} (hs : s.Holds cs) (L : Nat) :
    (rootNode s L).cv = treeRoot (cs ++ [chunkBytes s L]) := by
  obtain ⟨-, hlen, hcount, hlevels, hcovers⟩ := (holds_iff s cs).mp hs
  have hcov := chunksCovered_of_levels hlevels
  have htop : (s.processedChunks == 0) = s.stack.isEmpty := by
    rw [Bool.eq_iff_iff, isEmpty_iff_chunksCovered, hcov, beq_iff_eq, hcount, ← BitVec.toNat_inj,
      BitVec.toNat_ofNat, Nat.mod_eq_of_lt hlen]
    rfl
  have hleaf : terminalCv s L
      = treeCv (cs ++ [chunkBytes s L]) 1 (chunksCovered s.stack) 1 s.stack.isEmpty := by
    rw [treeCv_leaf _ _ _ le_rfl, hcov, terminalCv, htop, hcount]
    simp
  rw [rootNode, drainOnto_cv (hlevels ▸ Nat.bitIndices_sorted.pairwise)
    (covers_append [chunkBytes s L] hcov.le hcovers) one_pos (fun _ _ => Nat.one_le_two_pow) hleaf, hcov,
    treeRoot, List.length_append, List.length_singleton]

/-- Settles O33: the forest over the interior chunks, drained, is the tree over all chunks. -/
theorem finalizeGivesTreeRoot : Obligations.FinalizeGivesTreeRoot := by
  intro s cs len ws hs hlen hbuf
  obtain ⟨hl, hlt, hcount, hlevels, -⟩ := (holds_iff s cs).mp hs
  have hroom : s.stack.length ≤ 64 := length_le_of_levels (n := s.processedChunks) <| by
    rw [hlevels, hcount, BitVec.toNat_ofNat, Nat.mod_eq_of_lt hlt]
  have hroot : (rootNode s len.toNat).cv = treeRoot (cs ++ [(bytesLe ws.toList).take len.toNat]) := by
    rw [rootNode_cv_of_holds hs, chunkBytes, chunkWords_written s hbuf]
  exact ⟨_, execFinalize_succeeds hl hlen (by simp only [Config.stackDepth]; omega)
    (chunkCells_written hbuf _), rfl, hroot, congrArg (fun cv : Cv => bytesLe cv.toList) hroot⟩

end Sys2Proof.Machine
end

section
/-! PROOFS. The merges of a successful PUSH_CHUNK (42_tree_merger.md R152): the counter's 1 bits before and after,
and the trailing zeros of the new count. -/

namespace Sys2Proof.Machine

/-- Adding 1 replaces the trailing 1 bits by one bit: as many are lost as the sum has trailing zeros. -/
theorem exists_trailingZeros_succ (n : Nat) :
    ∃ z, 2 ^ z ∣ n + 1 ∧ ¬ 2 ^ (z + 1) ∣ n + 1 ∧ n.bitIndices.length + 1 = (n + 1).bitIndices.length + z := by
  induction n using Nat.evenOddStrongRec with
  | h_even m _ =>
    exact ⟨0, by simp, by omega, by rw [Nat.bitIndices_two_mul_add_one, Nat.bitIndices_two_mul]; simp⟩
  | h_odd m ih =>
    obtain ⟨z, hdvd, hndvd, hlen⟩ := ih m (by omega)
    have hsucc : 2 * m + 1 + 1 = 2 * (m + 1) := by omega
    refine ⟨z + 1, ?_, ?_, ?_⟩
    · rw [hsucc, Nat.pow_succ']
      exact Nat.mul_dvd_mul_left 2 hdvd
    · rw [hsucc, Nat.pow_succ']
      exact fun h => hndvd (Nat.dvd_of_mul_dvd_mul_left two_pos h)
    · rw [hsucc, Nat.bitIndices_two_mul_add_one, Nat.bitIndices_two_mul]
      simp only [List.length_cons, List.length_map]
      omega

/-- What a PUSH_CHUNK that ended with ERR OK has found and done. -/
theorem execPushChunk_ok {s t : State} (h : execPushChunk s = .next t) (hok : t.err = .ok) :
    s.lifecycle ≠ .finalized ∧ s.processedChunks.toNat ≠ 2 ^ 64 - 1
      ∧ t.processedChunks = s.processedChunks + 1
      ∧ t.stack
        = (s.pushLeaf (chunkCv (chunkBytes s Config.chunkBytes) s.processedChunks false)).stack := by
  rcases execPushChunk_cases s with ⟨c, hc, he, -⟩ | ⟨hl, hmax, -, he⟩ <;> cases he.symm.trans h
  · exact absurd hok hc
  · exact ⟨hl, hmax, by simp, by simp⟩

/-- Settles O31: the stack has one entry for each 1 bit of the counter, before the command and after it. -/
theorem mergesEqualTrailingZeros : Obligations.MergesEqualTrailingZeros := by
  intro s t htree h hok
  obtain ⟨hl, hmax, hcount, hstack⟩ := execPushChunk_ok h hok
  have hbefore := levels_of_treeOk htree hl
  have hafter : levels t.stack = (s.processedChunks.toNat + 1).bitIndices := by
    rw [hstack, pushLeaf_levels _ hmax hbefore, toNat_succ_of_ne_max hmax]
  have hlt := t.processedChunks.isLt
  rw [hcount, toNat_succ_of_ne_max hmax] at hlt ⊢
  obtain ⟨z, hdvd, hndvd, hlen⟩ := exists_trailingZeros_succ s.processedChunks.toNat
  have hz : z < 64 := (Nat.pow_lt_pow_iff_right (a := 2) (by omega)).mp <|
    (Nat.le_of_dvd (Nat.succ_pos _) hdvd).trans_lt hlt
  rw [← hbefore, ← hafter, levels_length, levels_length] at hlen
  exact ⟨z, hdvd, hndvd, by omega, hlen⟩

end Sys2Proof.Machine
end

section
/-! PROOFS. The lifecycle (42_tree_merger.md R156): a command moves STATE exactly when it succeeds, and nothing else
but hardware reset moves it. -/

namespace Sys2Proof.Machine

/-- A command ends with OK and the STATE of R156's table, or with an error and the old STATE. -/
theorem exec_lifecycle {i : Instr} {s t : State} (h : exec i s = .next t) :
    (t.err = .ok ∧ t.lifecycle = lifecycleAfter i s.lifecycle)
      ∨ (t.err ≠ .ok ∧ t.lifecycle = s.lifecycle) := by
  cases i with
  | reset => cases h; exact .inl ⟨rfl, rfl⟩
  | compress =>
    rcases execCompress_cases s with ⟨-, -, he⟩ | ⟨-, he⟩ <;> cases he.symm.trans h
    · exact .inr ⟨by simp, rfl⟩
    · exact .inl ⟨rfl, by simp [lifecycleAfter]⟩
  | pushChunk =>
    rcases execPushChunk_cases s with ⟨c, hc, he, -⟩ | ⟨-, -, -, he⟩ <;> cases he.symm.trans h
    · exact .inr ⟨hc, rfl⟩
    · exact .inl ⟨rfl, rfl⟩
  | finalize len =>
    rcases execFinalize_cases len s with ⟨c, hc, he, -⟩ | ⟨-, -, -, he⟩ <;> cases he.symm.trans h
    · exact .inr ⟨hc, rfl⟩
    · exact .inl ⟨rfl, rfl⟩

/-- In FINALIZED the commands that take a chunk fail. -/
theorem exec_of_finalized {i : Instr} {s : State} (hl : s.lifecycle = .finalized)
    (hi : i = .pushChunk ∨ ∃ len, i = .finalize len) :
    exec i s = .next { s with err := .protocolMisuse } := by
  rcases hi with rfl | ⟨len, rfl⟩
  · simpa only [if_pos hl] using pushChunkErrorsInOrder s
  · simpa only [if_pos hl] using finalizeErrorsInOrder s len

theorem regWrite_lifecycle {s t : State} {off width : Nat} {v : Word}
    (h : regWrite s off width v = .ok t) : t.lifecycle = s.lifecycle := by
  obtain ⟨r, -, hr⟩ := regWrite_ok h
  exact (writeReg_frame hr).1

theorem hostOp_lifecycle {s t : State} {op : HostOp} {rest : List HostOp} (h : hostOp s op rest = .next t) :
    t.lifecycle = s.lifecycle := by
  rcases hostOp_next h with ⟨off, width, v, u, -, hu, rfl⟩ | ⟨n, off, width, v, -, -, rfl⟩ | ⟨-, rfl⟩
    | ⟨-, rfl⟩ | ⟨-, rfl | rfl⟩ | ⟨-, rfl⟩
  · exact regWrite_lifecycle (t := u) hu
  · rw [noteRead_frame]
    rfl
  all_goals rfl

theorem hostTurn_lifecycle {s t : State} (h : hostTurn s = .next t) : t.lifecycle = s.lifecycle := by
  cases hp : s.hostProgram with
  | nil =>
    cases (hostTurn_idle hp).symm.trans h
    rfl
  | cons op rest => exact hostOp_lifecycle ((hostTurn_cons hp).symm.trans h)

/-- A completion that moves STATE is that of a decoded command that succeeds. -/
theorem completeCommand_lifecycle {s t : State} (h : completeCommand s = .next t)
    (hmoved : t.lifecycle ≠ s.lifecycle) :
    t.busy = false ∧ t.err = .ok ∧ ∃ i, decode s.inflight = .ok i := by
  rcases completeCommand_next h with ⟨e, -, rfl⟩ | ⟨i, u, hi, hu, rfl⟩
  · exact absurd rfl hmoved
  · rcases exec_lifecycle hu with ⟨hok, -⟩ | ⟨-, hkept⟩
    · exact ⟨rfl, hok, i, hi⟩
    · exact absurd hkept hmoved

/-- Settles O29: the table is the command's own, and a step that moves STATE is a completion. -/
theorem lifecycleTable : Obligations.LifecycleTable := by
  refine ⟨fun i s t h => ⟨fun hok => ?_, fun herr => ?_, fun hl hi => ?_⟩, fun s t hr h hmoved => ?_⟩
  · exact (exec_lifecycle h).elim (·.2) fun ⟨herr, _⟩ => absurd hok herr
  · exact (exec_lifecycle h).elim (fun ⟨hok, _⟩ => absurd hok herr) (·.2)
  · cases (exec_of_finalized hl hi).symm.trans h
    rfl
  · rcases step_next h with ⟨hreset, -⟩ | ⟨-, hturn⟩
    · simp [hr] at hreset
    · rcases turn_next hturn with ⟨hb, -, -, hc⟩ | ⟨-, -, -, rfl⟩ | ⟨-, -, hh⟩ | ⟨-, hh⟩
      · exact ⟨hb, completeCommand_lifecycle hc hmoved⟩
      · exact absurd rfl hmoved
      · exact absurd (hostTurn_lifecycle hh) hmoved
      · exact absurd (hostTurn_lifecycle hh) hmoved

end Sys2Proof.Machine
end

section
/-! PROOFS. RESET (42_tree_merger.md R155): its five writes, and that the session it starts owes nothing to the one
before. A command's effect on the session depends on the session and on the operands it takes. -/

namespace Sys2Proof.Machine

/-- Settles O11: RESET makes its five writes and no other. -/
theorem resetCommandStartsNewSession : Obligations.ResetCommandStartsNewSession := fun _ => rfl

/-! ### The session -/

/-- Two states with the same STATE, counter, stack, DIGEST and ERR. -/
structure State.SameSession (s t : State) : Prop where
  lifecycle : t.lifecycle = s.lifecycle
  processedChunks : t.processedChunks = s.processedChunks
  stack : t.stack = s.stack
  digest : t.digest = s.digest
  err : t.err = s.err

/-- After RESET every session is the same. -/
theorem execReset_sameSession {s₁ s₂ t₁ t₂ : State} (h₁ : execReset s₁ = .next t₁)
    (h₂ : execReset s₂ = .next t₂) : t₁.SameSession t₂ := by
  cases h₁
  cases h₂
  exact ⟨rfl, rfl, rfl, rfl, rfl⟩

section
variable {s t u : State} (hst : s.SameSession t)
include hst

theorem raiseErr_sameSession (c : ErrCode) : (s.raiseErr c).SameSession (t.raiseErr c) :=
  ⟨hst.lifecycle, hst.processedChunks, hst.stack, hst.digest, rfl⟩

theorem rootNode_sameSession {L : Nat} (hbytes : chunkBytes t L = chunkBytes s L) :
    rootNode t L = rootNode s L := by
  rw [rootNode_eq hbytes, hst.processedChunks, hst.stack]
  rfl

/-- COMPRESS on the same written operands ends the same way. -/
theorem execCompress_sameSession (hcells : compressCells s = compressCells t)
    (h : execCompress s = .next u) (hw : u.faulted = none ∨ cellsWritten (compressCells s) = true) :
    ∃ v, execCompress t = .next v ∧ u.SameSession v := by
  have hwritten : cellsWritten (compressCells s) = true := by
    rcases execCompress_cases s with ⟨hwritten, -⟩ | ⟨-, he⟩
    · exact hwritten
    · cases he.symm.trans h
      exact hw.elim (cellsWritten_of_noteOperands s) id
  obtain ⟨o, hs⟩ := exists_holdsOperands ((cellsWritten_iff _).mp hwritten)
  have ht := holdsOperands_of_compressCells_eq hcells hs
  by_cases hlegal : o.Legal
  · cases (execCompress_of_legal hs hlegal).symm.trans h
    exact ⟨_, execCompress_of_legal ht hlegal, hst.lifecycle, hst.processedChunks,
      hst.stack, hst.digest, rfl⟩
  · cases (execCompress_of_not_legal hs hlegal).symm.trans h
    exact ⟨_, execCompress_of_not_legal ht hlegal, hst.lifecycle, hst.processedChunks,
      hst.stack, hst.digest, rfl⟩

/-- PUSH_CHUNK of the same written chunk ends the same way. -/
theorem execPushChunk_sameSession (hbuf : s.chunkBuf = t.chunkBuf) (h : execPushChunk s = .next u)
    (hw : u.faulted = none ∨ cellsWritten (chunkCells s Config.chunkBytes) = true) :
    ∃ v, execPushChunk t = .next v ∧ u.SameSession v := by
  unfold execPushChunk at h ⊢
  rw [hst.lifecycle, hst.processedChunks, hst.stack]
  split_ifs at h ⊢ with hl hmax hfull <;> cases h
  · exact ⟨_, rfl, raiseErr_sameSession hst _⟩
  · exact ⟨_, rfl, raiseErr_sameSession hst _⟩
  · exact ⟨_, rfl, raiseErr_sameSession hst _⟩
  · have hwritten := hw.elim (cellsWritten_of_noteOperands s) id
    rw [chunkBytes_eq_of_chunkBuf_eq hbuf le_rfl hwritten]
    exact ⟨_, rfl, rfl, by simp [hst.processedChunks], by simp [hst.stack], by simp [hst.digest], rfl⟩

/-- FINALIZE of the same written chunk ends the same way. -/
theorem execFinalize_sameSession {len : BitVec 11} (hbuf : s.chunkBuf = t.chunkBuf)
    (h : execFinalize len s = .next u)
    (hw : u.faulted = none ∨ cellsWritten (chunkCells s len.toNat) = true) :
    ∃ v, execFinalize len t = .next v ∧ u.SameSession v := by
  unfold execFinalize at h ⊢
  rw [hst.lifecycle, hst.stack]
  split_ifs at h ⊢ with hl hlong hfull <;> cases h
  · exact ⟨_, rfl, raiseErr_sameSession hst _⟩
  · exact ⟨_, rfl, raiseErr_sameSession hst _⟩
  · exact ⟨_, rfl, raiseErr_sameSession hst _⟩
  · have hwritten := hw.elim (cellsWritten_of_noteOperands s) id
    rw [rootNode_sameSession hst (chunkBytes_eq_of_chunkBuf_eq hbuf (Nat.le_of_not_gt hlong) hwritten)]
    exact ⟨_, rfl, rfl, by simp [hst.processedChunks], rfl, rfl, rfl⟩

/-- A command that meets no unwritten operand ends the same way from the same session and operands. -/
theorem exec_sameSession {i : Instr} (hcells : compressCells s = compressCells t)
    (hbuf : s.chunkBuf = t.chunkBuf) (h : exec i s = .next u)
    (hw : u.faulted = none ∨ (∀ c ∈ compressCells s, c ≠ none) ∧ ∀ k : Fin 256, s.chunkBuf[k] ≠ none) :
    ∃ v, exec i t = .next v ∧ u.SameSession v := by
  cases i with
  | reset => exact ⟨_, rfl, execReset_sameSession h rfl⟩
  | compress =>
    exact execCompress_sameSession hst hcells h (hw.imp_right fun ⟨hops, _⟩ => (cellsWritten_iff _).mpr hops)
  | pushChunk =>
    exact execPushChunk_sameSession hst hbuf h
      (hw.imp_right fun ⟨_, hwords⟩ => cellsWritten_chunkCells fun k _ => hwords k)
  | finalize len =>
    exact execFinalize_sameSession hst hbuf h
      (hw.imp_right fun ⟨_, hwords⟩ => cellsWritten_chunkCells fun k _ => hwords k)

end

/-- Settles O12: after RESET both sessions are the same, and RESET leaves the operands. -/
theorem resetForgetsEarlierSession : Obligations.ResetForgetsEarlierSession := by
  intro s₁ s₂ t₁ t₂ u₁ i hcells hbuf h₁ h₂ hu hw
  obtain ⟨hcells₁, hbuf₁⟩ := exec_dataRegisters h₁
  obtain ⟨hcells₂, hbuf₂⟩ := exec_dataRegisters h₂
  rw [← hcells₁, ← hcells₂] at hcells
  rw [← hbuf₁, ← hbuf₂] at hbuf
  obtain ⟨u₂, hu₂, hl, hcount, hstack, hdigest, herr⟩ :=
    exec_sameSession (execReset_sameSession h₁ h₂) hcells hbuf hu (by rwa [hcells₁, hbuf₁])
  exact ⟨u₂, hu₂, hl, hcount, hstack, hdigest, herr⟩

end Sys2Proof.Machine
end

section
/-! PROOFS. The host's session (43_host_session.md R181 to R183, R187): feeding respects concatenation, and feeding
followed by the finalize move issues the sequence owed for the message. Feeding takes the message a chunk at a time:
bytes that complete no chunk are only buffered, and a whole chunk forwards the one held back before it. The owed
sequence unfolds in the same steps, so the two agree by induction on the bytes still to be fed. -/

namespace Sys2Proof.Machine

/-! ### Feeding -/

@[simp] theorem feed_nil (z : Session) : feed z [] = (z, []) := rfl

theorem feed_cons (z : Session) (b : Byte) (bs : List Byte) :
    feed z (b :: bs)
      = ((feed (feedByte z b).1 bs).1, (feedByte z b).2 ++ (feed (feedByte z b).1 bs).2) := rfl

/-- Settles O58, by induction on the bytes fed first. -/
theorem feedIsChunkingIndependent : Obligations.FeedIsChunkingIndependent := by
  intro z a b
  induction a generalizing z with
  | nil => simp
  | cons x a ih => simp [feed_cons, ih]

/-- A byte that completes no chunk is buffered, and nothing is issued. -/
theorem feedByte_of_lt {z : Session} {b : Byte} (h : z.tail.length + 1 < 1024) :
    feedByte z b = ({ z with tail := z.tail ++ [b] }, []) :=
  if_neg (Nat.ne_of_lt h)

/-- A byte that completes a chunk forwards the chunk held back before it. -/
theorem feedByte_of_eq {z : Session} {b : Byte} (h : z.tail.length + 1 = 1024) :
    feedByte z b = ({ held := some (z.tail ++ [b]), tail := [] }, z.held.elim [] pushSequence) := by
  rw [feedByte, if_pos h]
  cases z.held <;> rfl

/-- Bytes that complete no chunk are buffered, and nothing is issued. -/
theorem feed_of_lt {z : Session} {bs : List Byte} (h : z.tail.length + bs.length < 1024) :
    feed z bs = ({ z with tail := z.tail ++ bs }, []) := by
  induction bs generalizing z with
  | nil => simp
  | cons b bs ih =>
    rw [List.length_cons] at h
    rw [feed_cons, feedByte_of_lt (by omega), ih (by simp; omega)]
    simp

/-- A whole chunk forwards the chunk held back before it and is held back in its place. -/
theorem feed_chunk {C : List Byte} (hC : C.length = 1024) (held : Option (List Byte)) :
    feed { held, tail := [] } C = ({ held := some C, tail := [] }, held.elim [] pushSequence) := by
  obtain ⟨front, last, rfl⟩ := C.eq_nil_or_concat'.resolve_left (List.ne_nil_of_length_pos (by omega))
  have hfront : front.length + 1 = 1024 := by simpa using hC
  rw [feedIsChunkingIndependent, feed_of_lt (bs := front) (by simp; omega), feed_cons,
    feedByte_of_eq (by simpa using hfront)]
  simp

/-! ### The sequence owed for a message -/

theorem chunkCount_of_le {N : Nat} (h : N ≤ 1024) : chunkCount N = 1 := by
  unfold chunkCount; omega

theorem chunkCount_add_chunk {N : Nat} (h : 0 < N) : chunkCount (1024 + N) = chunkCount N + 1 := by
  unfold chunkCount; omega

theorem chunkCount_pos (N : Nat) : 0 < chunkCount N := by
  unfold chunkCount; omega

theorem chunkOf_zero_of_le {M : List Byte} (h : M.length ≤ 1024) : chunkOf M 0 = M := by
  simpa [chunkOf] using h

theorem chunkOf_append_zero {C : List Byte} (hC : C.length = 1024) (M : List Byte) : chunkOf (C ++ M) 0 = C := by
  simp [chunkOf, ← hC]

theorem chunkOf_append_succ {C : List Byte} (hC : C.length = 1024) (M : List Byte) (i : Nat) :
    chunkOf (C ++ M) (i + 1) = chunkOf M i := by
  rw [chunkOf, chunkOf, show 1024 * (i + 1) = C.length + 1024 * i by omega, List.drop_length_add_append]

/-- A message of one chunk owes its FINALIZE alone. -/
theorem messageProgram_of_le {M : List Byte} (h : M.length ≤ 1024) : messageProgram M = finalizeSequence M := by
  simp [messageProgram, chunkCount_of_le h, chunkOf_zero_of_le h]

/-- A chunk with bytes after it is an interior chunk: it is pushed first. -/
theorem messageProgram_chunk_append {C M : List Byte} (hC : C.length = 1024) (hM : M ≠ []) :
    messageProgram (C ++ M) = pushSequence C ++ messageProgram M := by
  obtain ⟨n, hn⟩ := Nat.exists_eq_add_one.mpr (chunkCount_pos M.length)
  have hcount : chunkCount (C.length + M.length) = n + 2 := by
    rw [hC, chunkCount_add_chunk (List.length_pos_iff.mpr hM), hn]
  simp [messageProgram, hcount, hn, List.range_succ_eq_map, List.flatMap_map,
    chunkOf_append_zero hC, chunkOf_append_succ hC]

/-! ### The session meets its duty -/

/-- What a session issues while it is fed the rest of a message and finalized. -/
def Session.issues (z : Session) (M : List Byte) : List HostOp :=
  (feed z M).2 ++ finalizeMove (feed z M).1.held (feed z M).1.tail

theorem issues_of_lt {M : List Byte} (h : M.length < 1024) (held : Option (List Byte)) :
    Session.issues { held, tail := [] } M = finalizeMove held M := by
  simp [Session.issues, feed_of_lt (z := { held, tail := [] }) (by simpa using h)]

theorem issues_chunk_append {C : List Byte} (hC : C.length = 1024) (held : Option (List Byte)) (M : List Byte) :
    Session.issues { held, tail := [] } (C ++ M)
      = held.elim [] pushSequence ++ Session.issues { held := some C, tail := [] } M := by
  simp [Session.issues, feedIsChunkingIndependent _ C M, feed_chunk hC]

/-- A session that holds a chunk back owes what the message of that chunk and the bytes to come owes. -/
theorem issues_of_held {C : List Byte} (hC : C.length = 1024) (M : List Byte) :
    Session.issues { held := some C, tail := [] } M = messageProgram (C ++ M) := by
  induction hlen : M.length using Nat.strong_induction_on generalizing C M with
  | _ N ih =>
    subst hlen
    by_cases hshort : M.length < 1024
    · rw [issues_of_lt hshort]
      cases M with
      | nil => rw [List.append_nil, messageProgram_of_le hC.le, finalizeMove]
      | cons b tail =>
        rw [messageProgram_chunk_append hC (List.cons_ne_nil _ _), messageProgram_of_le hshort.le, finalizeMove]
    · have hnext : (M.take 1024).length = 1024 := by rw [List.length_take]; omega
      have hrest : (M.drop 1024).length < M.length := by rw [List.length_drop]; omega
      calc Session.issues { held := some C, tail := [] } M
        _ = pushSequence C ++ Session.issues { held := some (M.take 1024), tail := [] } (M.drop 1024) := by
          rw [← Option.elim_some [] pushSequence C, ← issues_chunk_append hnext, List.take_append_drop]
        _ = pushSequence C ++ messageProgram M := by
          rw [ih _ hrest hnext _ rfl, List.take_append_drop]
        _ = messageProgram (C ++ M) :=
          (messageProgram_chunk_append hC (List.ne_nil_of_length_pos (by omega))).symm

/-- A new session issues what the whole message owes. -/
theorem newSession_issues (M : List Byte) : newSession.issues M = messageProgram M := by
  by_cases hshort : M.length < 1024
  · exact (issues_of_lt hshort none).trans (messageProgram_of_le hshort.le).symm
  · have hfirst : (M.take 1024).length = 1024 := by rw [List.length_take]; omega
    calc newSession.issues M
      _ = Session.issues { held := some (M.take 1024), tail := [] } (M.drop 1024) := by
        simpa [newSession] using issues_chunk_append hfirst none (M.drop 1024)
      _ = messageProgram M := by rw [issues_of_held hfirst, List.take_append_drop]

/-- Settles O57: a short message is only buffered; of a longer one the first chunk is held back, and the session
that holds it owes what the message owes. -/
theorem sessionIssuesOwedSequence : Obligations.SessionIssuesOwedSequence := newSession_issues

end Sys2Proof.Machine
end

section
/-! PROOFS. The error codes (60_exceptions.md R201, R202, R204): the code each command reports and its causes, what an
error leaves unchanged, and that what ERR held before has no effect. -/

namespace Sys2Proof.Machine

/-! ### A command succeeds or raises an error -/

/-- A command ends with OK, or all it does is raise its error. -/
theorem exec_ok_or_raiseErr {i : Instr} {s t : State} (h : exec i s = .next t) :
    t.err = .ok ∨ t = s.raiseErr t.err := by
  cases i with
  | reset => cases h; exact .inl rfl
  | compress =>
    rcases execCompress_cases s with ⟨-, -, he⟩ | ⟨-, he⟩ <;> cases he.symm.trans h
    · exact .inr rfl
    · exact .inl rfl
  | pushChunk =>
    rcases execPushChunk_cases s with ⟨c, -, he, -⟩ | ⟨-, -, -, he⟩ <;> cases he.symm.trans h
    · exact .inr rfl
    · exact .inl rfl
  | finalize len =>
    rcases execFinalize_cases len s with ⟨c, -, he, -⟩ | ⟨-, -, -, he⟩ <;> cases he.symm.trans h
    · exact .inr rfl
    · exact .inl rfl

/-- Settles O25: an illegal word raises its error alone, and so does a command that fails. -/
theorem failedCommandWritesErrOnly : Obligations.FailedCommandWritesErrOnly := by
  intro s t hdue h herr
  rcases completeCommand_next ((step_of_due hdue).symm.trans h) with ⟨e, -, rfl⟩ | ⟨i, u, -, hu, rfl⟩
  · rfl
  · exact congrArg State.finishCommand ((exec_ok_or_raiseErr hu).resolve_left herr)

/-! ### The causes -/

/-- The cause of INPUT_ERROR on COMPRESS (R110, R203): all operands are written, and BLOCK_LEN or FLAGS is not
legal. -/
def State.BadOperands (s : State) : Prop :=
  (∀ c ∈ compressCells s, c ≠ none)
    ∧ ((∃ v, s.blockLen = some v ∧ 64 < v.toNat) ∨ ∃ v, s.flags = some v ∧ v.extractLsb' 7 25 ≠ 0)

theorem badOperands_iff_of_holdsOperands {s : State} {o : CompressOperands} (h : s.HoldsOperands o) :
    s.BadOperands ↔ ¬ o.Legal := by
  have hwritten := (cellsWritten_iff _).mp (compressCells_written h)
  have hlegal : o.Legal ↔ o.blockLen.toNat ≤ 64 ∧ o.flags.extractLsb' 7 25 = 0 :=
    and_congr_right fun _ => flagsLegal_iff o.flags
  rw [State.BadOperands, and_iff_right hwritten, hlegal]
  simp [h.blockLen, h.flags, imp_iff_not_or]

/-- The code COMPRESS reports. -/
theorem execCompress_err {s t : State} (h : execCompress s = .next t) :
    (s.BadOperands ∧ t.err = .inputError) ∨ (¬ s.BadOperands ∧ t.err = .ok) := by
  by_cases hw : ∀ c ∈ compressCells s, c ≠ none
  · obtain ⟨o, ho⟩ := exists_holdsOperands hw
    rw [badOperands_iff_of_holdsOperands ho, not_not]
    by_cases hlegal : o.Legal
    · cases (execCompress_of_legal ho hlegal).symm.trans h
      exact .inr ⟨hlegal, rfl⟩
    · cases (execCompress_of_not_legal ho hlegal).symm.trans h
      exact .inl ⟨hlegal, rfl⟩
  · refine .inr ⟨fun hbad => hw hbad.1, ?_⟩
    rcases execCompress_cases s with ⟨hwritten, -⟩ | ⟨-, he⟩
    · exact absurd ((cellsWritten_iff _).mp hwritten) hw
    · cases he.symm.trans h
      rfl

/-- Settles O27: the causes are those of the illegal word and of each command's own checks. -/
theorem errorCauses : Obligations.ErrorCauses := by
  intro s t hdue h
  rcases completeCommand_next ((step_of_due hdue).symm.trans h) with ⟨e, hd, rfl⟩ | ⟨i, u, hd, hu, rfl⟩
  · simp [hd]
  rw [hd, State.finishCommand_err]
  cases i with
  | reset =>
    cases hu
    simp
  | compress =>
    rcases execCompress_err hu with ⟨hbad, herr⟩ | ⟨hgood, herr⟩
    · simpa [herr, State.BadOperands] using hbad
    · simpa [herr, State.BadOperands] using hgood
  | pushChunk =>
    rcases execPushChunk_cases s with
      ⟨c, -, he, ⟨rfl, hl⟩ | ⟨rfl, hl, hmax⟩ | ⟨rfl, hl, hmax, hfull⟩⟩ | ⟨hl, hmax, hroom, he⟩ <;>
      cases he.symm.trans hu
    · simp [hl]
    · simp [hl, hmax]
    · simpa [hl, hfull] using hmax
    · simpa [hl, hroom] using hmax
  | finalize len =>
    rcases execFinalize_cases len s with
      ⟨c, -, he, ⟨rfl, hl⟩ | ⟨rfl, hl, hlong⟩ | ⟨rfl, hl, hlen, hfull⟩⟩ | ⟨hl, hlen, hroom, he⟩ <;>
      cases he.symm.trans hu
    · simp [hl]
    · simp [hl, hlong, hlong.not_ge]
    · simp [hl, hlen, hfull]
    · simp [hl, hlen, hroom]

/-! ### What ERR held before -/

section
variable {s t : State} (e : ErrCode)

/-- COMPRESS on written operands does not depend on ERR. -/
theorem execCompress_raiseErr (h : execCompress s = .next t)
    (hw : t.faulted = none ∨ cellsWritten (compressCells s) = true) :
    execCompress (s.raiseErr e) = .next t := by
  have hwritten : cellsWritten (compressCells s) = true := by
    rcases execCompress_cases s with ⟨hwritten, -⟩ | ⟨-, he⟩
    · exact hwritten
    · cases he.symm.trans h
      exact hw.elim (cellsWritten_of_noteOperands s) id
  obtain ⟨o, hs⟩ := exists_holdsOperands ((cellsWritten_iff _).mp hwritten)
  have hs' : (s.raiseErr e).HoldsOperands o := holdsOperands_of_compressCells_eq (s := s) rfl hs
  by_cases hlegal : o.Legal
  · cases (execCompress_of_legal hs hlegal).symm.trans h
    exact execCompress_of_legal hs' hlegal
  · cases (execCompress_of_not_legal hs hlegal).symm.trans h
    exact execCompress_of_not_legal hs' hlegal

/-- PUSH_CHUNK of a written chunk does not depend on ERR. -/
theorem execPushChunk_raiseErr (h : execPushChunk s = .next t)
    (hw : t.faulted = none ∨ cellsWritten (chunkCells s Config.chunkBytes) = true) :
    execPushChunk (s.raiseErr e) = .next t := by
  unfold execPushChunk at h ⊢
  rw [State.raiseErr_lifecycle, State.raiseErr_processedChunks, State.raiseErr_stack]
  split_ifs at h ⊢ with hl hmax hfull <;> cases h
  · rfl
  · rfl
  · rfl
  · have hwritten := hw.elim (cellsWritten_of_noteOperands s) id
    have hnoted : (s.raiseErr e).noteOperands (chunkCells (s.raiseErr e) Config.chunkBytes) = s.raiseErr e :=
      noteOperands_written _ hwritten
    rw [hnoted, noteOperands_written s hwritten,
      chunkBytes_eq_of_chunkBuf_eq (s := s) (t := s.raiseErr e) rfl le_rfl hwritten]
    rfl

/-- FINALIZE of a written chunk does not depend on ERR. -/
theorem execFinalize_raiseErr {len : BitVec 11} (h : execFinalize len s = .next t)
    (hw : t.faulted = none ∨ cellsWritten (chunkCells s len.toNat) = true) :
    execFinalize len (s.raiseErr e) = .next t := by
  unfold execFinalize at h ⊢
  rw [State.raiseErr_lifecycle, State.raiseErr_stack]
  split_ifs at h ⊢ with hl hlong hfull <;> cases h
  · rfl
  · rfl
  · rfl
  · have hwritten := hw.elim (cellsWritten_of_noteOperands s) id
    have hnoted : (s.raiseErr e).noteOperands (chunkCells (s.raiseErr e) len.toNat) = s.raiseErr e :=
      noteOperands_written _ hwritten
    have hroot : rootNode (s.raiseErr e) len.toNat = rootNode s len.toNat :=
      rootNode_eq (chunkBytes_eq_of_chunkBuf_eq (s := s) rfl (Nat.le_of_not_gt hlong) hwritten)
    rw [hnoted, noteOperands_written s hwritten, hroot]
    rfl

/-- A command that meets no unwritten operand does not depend on ERR. -/
theorem exec_raiseErr {i : Instr} (h : exec i s = .next t)
    (hw : t.faulted = none ∨ (∀ c ∈ compressCells s, c ≠ none) ∧ ∀ k : Fin 256, s.chunkBuf[k] ≠ none) :
    exec i (s.raiseErr e) = .next t := by
  cases i with
  | reset => exact h
  | compress =>
    exact execCompress_raiseErr e h (hw.imp_right fun ⟨hops, _⟩ => (cellsWritten_iff _).mpr hops)
  | pushChunk =>
    exact execPushChunk_raiseErr e h
      (hw.imp_right fun ⟨_, hwords⟩ => cellsWritten_chunkCells fun k _ => hwords k)
  | finalize len =>
    exact execFinalize_raiseErr e h
      (hw.imp_right fun ⟨_, hwords⟩ => cellsWritten_chunkCells fun k _ => hwords k)

end

/-- Settles O26: the same word completes, and neither an illegal word nor a command looks at ERR. -/
theorem completionOverwritesErr : Obligations.CompletionOverwritesErr := by
  intro s t e hdue h hw
  change step (s.raiseErr e) = _
  rw [step_of_due (s := s.raiseErr e) hdue]
  rcases completeCommand_next ((step_of_due hdue).symm.trans h) with ⟨f, hd, rfl⟩ | ⟨i, u, hd, hu, rfl⟩
  · exact completeCommand_of_error (s := s.raiseErr e) hd
  · exact completeCommand_of_ok (s := s.raiseErr e) hd (exec_raiseErr e hu hw)

end Sys2Proof.Machine
end

section
/-! PROOFS. Model faults (60_exceptions.md R207, R208): what each kind of record changes, and that every step records
a fault or leaves `faulted` as it is. -/

namespace Sys2Proof.Machine

/-! ### A broken invariant -/

/-- When the tree is not sound, the engine's turn records that and completes nothing. -/
theorem step_eq_recordFault {s : State} (hr : s.resetInput = false) (hb : s.busy = true)
    (hl : s.latencyLeft = 0) (ht : treeOk s = false) : step s = .next (s.recordFault .invariantViolation) := by
  simp [step, oneStep, turn, engineTurn, hr, hb, hl, ht]

/-- Settles O10: the step is the record alone. -/
theorem brokenInvariantIsRecorded : Obligations.BrokenInvariantIsRecorded := fun _ hr hb hl ht =>
  step_eq_recordFault hr hb hl ht

/-! ### What a step records -/

/-- A step from `s` to `t` has recorded a fault of the given kind, and beside the record it changes only what R207
and R52 let it change. -/
def State.Records (s t : State) : Fault → Prop
  | .busError => t = { s.recordFault .busError with latencyLeft := t.latencyLeft }
  | .unwrittenRead => t = { s.recordFault .unwrittenRead with hostVars := t.hostVars }
  | .unwrittenOperand => s.busy = true ∧ t = { s.recordFault .unwrittenOperand with
      lifecycle := t.lifecycle, processedChunks := t.processedChunks, stack := t.stack
      digest := t.digest, out := t.out, err := t.err, busy := false }
  | .invariantViolation => t = s.recordFault .invariantViolation

/-- Every kind of record sets `faulted`, if it is not set, and ends the host's program. -/
theorem faulted_of_records {s t : State} {f : Fault} (h : s.Records t f) :
    t.faulted = some (s.faulted.getD f) ∧ t.hostProgram = [] := by
  cases f with
  | busError => exact ⟨congrArg State.faulted h, congrArg State.hostProgram h⟩
  | unwrittenRead => exact ⟨congrArg State.faulted h, congrArg State.hostProgram h⟩
  | unwrittenOperand =>
    obtain ⟨-, ht⟩ := h
    exact ⟨congrArg State.faulted ht, congrArg State.hostProgram ht⟩
  | invariantViolation => exact ⟨congrArg State.faulted h, congrArg State.hostProgram h⟩

/-- A command leaves the fault, or records an unwritten operand beside its results. -/
theorem exec_records {i : Instr} {s t : State} (h : exec i s = .next t) :
    t.faulted = s.faulted ∨ t = { s.recordFault .unwrittenOperand with
      lifecycle := t.lifecycle, processedChunks := t.processedChunks, stack := t.stack
      digest := t.digest, out := t.out, err := t.err } := by
  cases i with
  | reset => cases h; exact .inl rfl
  | compress =>
    rcases execCompress_frame h with ht | ⟨-, ht⟩ <;> rw [ht]
    · exact .inl rfl
    · exact .inr rfl
  | pushChunk =>
    rcases execPushChunk_frame h with ht | ⟨-, ht⟩ <;> rw [ht]
    · exact .inl rfl
    · exact .inr rfl
  | finalize len =>
    rcases execFinalize_frame h with ht | ⟨-, ht⟩ <;> rw [ht]
    · exact .inl rfl
    · exact .inr rfl

theorem completeCommand_records {s t : State} (hb : s.busy = true) (h : completeCommand s = .next t) :
    t.faulted = s.faulted ∨ s.Records t .unwrittenOperand := by
  rcases completeCommand_next h with ⟨e, -, rfl⟩ | ⟨i, u, -, hu, rfl⟩
  · exact .inl rfl
  · exact (exec_records hu).imp_right fun hrec => ⟨hb, congrArg State.finishCommand hrec⟩

/-- While a command is in flight no unwritten cell can be read. -/
theorem idle_of_regRead_unwritten {s : State} {off width : Nat} {v : Word} (h : regRead s off width = .ok v)
    (hu : unwrittenAt s off = true) : s.busy = false := by
  obtain ⟨r, haccess, -⟩ := regRead_ok h
  obtain ⟨-, hat, -, hstatus⟩ := access_ok haccess
  by_contra hb
  obtain ⟨-, rfl⟩ := hstatus (by simpa using hb)
  simp [unwrittenAt, hat, regCell] at hu

theorem regWrite_faulted {s t : State} {off width : Nat} {v : Word} (h : regWrite s off width v = .ok t) :
    t.faulted = s.faulted := by
  obtain ⟨r, -, hr⟩ := regWrite_ok h
  obtain ⟨-, -, -, -, -, -, hfault, -⟩ := writeReg_frame hr
  exact hfault

/-- An operation of the host records a refused access, an unwritten read, or nothing. -/
theorem hostOp_records {s t : State} {op : HostOp} {rest : List HostOp}
    (h : hostOp s.countTurn op rest = .next t) : t.faulted = s.faulted ∨ ∃ f, s.Records t f := by
  rcases hostOp_next h with ⟨off, width, v, u, -, hu, rfl⟩ | ⟨n, off, width, v, -, hv, rfl⟩ | ⟨-, rfl⟩
    | ⟨-, rfl⟩ | ⟨-, rfl | rfl⟩ | ⟨-, rfl⟩
  · exact .inl (regWrite_faulted (s := s.countTurn) (t := u) hu)
  · cases hw : unwrittenAt s off with
    | false =>
      rw [noteRead_written]
      · exact .inl rfl
      · rw [unwrittenAt_setVar_setProgram, unwrittenAt_countTurn, hw]
    | true =>
      rw [regRead_countTurn] at hv
      rw [countTurn_of_idle (idle_of_regRead_unwritten hv hw), noteRead_unwritten]
      · exact .inr ⟨.unwrittenRead, rfl⟩
      · rw [unwrittenAt_setVar_setProgram, hw]
  · exact .inr ⟨.busError, rfl⟩
  all_goals exact .inl rfl

/-- Every step leaves the fault, or records one. -/
theorem step_records {s t : State} (h : step s = .next t) : t.faulted = s.faulted ∨ ∃ f, s.Records t f := by
  by_cases hm : s.HostMoves
  · cases hp : s.hostProgram with
    | nil =>
      cases (step_idle hm hp).symm.trans h
      exact .inl rfl
    | cons op rest => exact hostOp_records ((step_of_hostMoves_cons hm hp).symm.trans h)
  · rcases step_next h with ⟨-, rfl⟩ | ⟨hr, hturn⟩
    · exact .inl rfl
    · rcases turn_next hturn with ⟨hb, -, -, hc⟩ | ⟨-, -, -, rfl⟩ | ⟨-, hl, -⟩ | ⟨hb, -⟩
      · exact (completeCommand_records hb hc).imp_right fun hrec => ⟨_, hrec⟩
      · exact .inr ⟨.invariantViolation, rfl⟩
      · exact absurd ⟨hr, .inr hl⟩ hm
      · exact absurd ⟨hr, .inl hb⟩ hm

/-! ### A recorded fault stays -/

theorem step_keeps_fault {s t : State} {f : Fault} (hf : s.faulted = some f) (h : step s = .next t) :
    t.faulted = some f := by
  rcases step_records h with hkept | ⟨g, hrec⟩
  · exact hkept.trans hf
  · rw [(faulted_of_records hrec).1, hf, Option.getD_some]

theorem step_keeps_program_over {s t : State} (hp : s.hostProgram = []) (h : step s = .next t) :
    t.hostProgram = [] := by
  rcases step_program h with hkept | htail | ⟨hnil, -⟩
  · exact hkept.trans hp
  · rw [htail, hp, List.tail_nil]
  · exact hnil

theorem run_keeps_fault {s t : State} {f : Fault} {k : Nat} (hf : s.faulted = some f)
    (h : core.run k s = .next t) : t.faulted = some f ∧ (s.hostProgram = [] → t.hostProgram = []) := by
  induction k generalizing s with
  | zero =>
    cases (core_run_zero s).symm.trans h
    exact ⟨hf, id⟩
  | succ k ih =>
    obtain ⟨u, hu⟩ := step_answers s
    obtain ⟨hfault, hprogram⟩ := ih (step_keeps_fault hf hu) ((core_run_next k hu).symm.trans h)
    exact ⟨hfault, fun hp => hprogram (step_keeps_program_over hp hu)⟩

/-- Settles O52: a run keeps the fault step by step, and the record of a first fault is of the kind recorded. -/
theorem faultIsNeverCleared : Obligations.FaultIsNeverCleared := by
  refine ⟨fun s t f k hf h => run_keeps_fault hf h, fun s t f hs h hf => ?_⟩
  rcases step_records h with hkept | ⟨g, hrec⟩
  · simp [hkept, hs] at hf
  · obtain ⟨hfault, hprogram⟩ := faulted_of_records hrec
    obtain rfl : f = g := by simpa [hf, hs] using hfault
    refine ⟨hprogram, ?_⟩
    cases f <;> simpa only [State.Records, State.recordFault, hs, Option.getD_none] using hrec

end Sys2Proof.Machine
end

section
/-! PROOFS. Unwritten operands (60_exceptions.md R203, R211, 10_state.md R31): when a command records UnwrittenOperand,
and that it runs as if each unwritten cell held its free value. -/

namespace Sys2Proof.Machine

/-! ### When a command records an unwritten operand -/

theorem exists_unwritten_iff (cells : List (Option Word)) :
    (∃ c ∈ cells, c = none) ↔ cellsWritten cells = false := by
  rw [← Bool.not_eq_true, cellsWritten_iff]
  simp

section
variable {s t : State} (hs : s.faulted = none)
include hs

/-- With no fault before, looking at the operands records one exactly if a cell is unwritten. -/
theorem noteOperands_faulted_iff (cells : List (Option Word)) :
    (s.noteOperands cells).faulted = some .unwrittenOperand ↔ ∃ c ∈ cells, c = none := by
  rw [exists_unwritten_iff]
  cases hw : cellsWritten cells with
  | true => simp [noteOperands_written s hw, hs]
  | false => simp [noteOperands_unwritten s hw, hs]

theorem execCompress_faulted_iff (h : execCompress s = .next t) :
    t.faulted = some .unwrittenOperand ↔ ∃ c ∈ compressCells s, c = none := by
  rcases execCompress_cases s with ⟨hw, -, he⟩ | ⟨-, he⟩ <;> cases he.symm.trans h
  · rw [exists_unwritten_iff, hw, State.raiseErr_faulted, hs]
    simp
  · simpa using noteOperands_faulted_iff hs (compressCells s)

theorem execPushChunk_faulted_iff (h : execPushChunk s = .next t) :
    t.faulted = some .unwrittenOperand
      ↔ s.lifecycle ≠ .finalized ∧ s.processedChunks.toNat ≠ 2 ^ 64 - 1 ∧ s.stack.length ≠ Config.stackDepth
        ∧ ∃ c ∈ chunkCells s Config.chunkBytes, c = none := by
  rcases execPushChunk_cases s with ⟨c, -, he, hc⟩ | ⟨hl, hmax, hroom, he⟩ <;> cases he.symm.trans h
  · rw [State.raiseErr_faulted, hs]
    rcases hc with ⟨-, hl⟩ | ⟨-, -, hmax⟩ | ⟨-, -, -, hfull⟩
    · simp [hl]
    · simp [hmax]
    · simp [hfull]
  · rw [and_iff_right hl, and_iff_right hmax, and_iff_right hroom]
    simpa using noteOperands_faulted_iff hs (chunkCells s Config.chunkBytes)

theorem execFinalize_faulted_iff {len : BitVec 11} (h : execFinalize len s = .next t) :
    t.faulted = some .unwrittenOperand
      ↔ s.lifecycle ≠ .finalized ∧ len.toNat ≤ Config.chunkBytes ∧ s.stack.length ≠ Config.stackDepth
        ∧ ∃ c ∈ chunkCells s len.toNat, c = none := by
  rcases execFinalize_cases len s with ⟨c, -, he, hc⟩ | ⟨hl, hlen, hroom, he⟩ <;> cases he.symm.trans h
  · rw [State.raiseErr_faulted, hs]
    rcases hc with ⟨-, hl⟩ | ⟨-, -, hlong⟩ | ⟨-, -, -, hfull⟩
    · simp [hl]
    · simp [hlong.not_ge]
    · simp [hfull]
  · rw [and_iff_right hl, and_iff_right hlen, and_iff_right hroom]
    simpa using noteOperands_faulted_iff hs (chunkCells s len.toNat)

end

theorem none_mem_toList_iff {n : Nat} (xs : Vector (Option Word) n) :
    none ∈ xs.toList ↔ ∃ i : Fin n, xs[i] = none := by
  rw [Vector.mem_toList_iff, Vector.mem_iff_getElem]
  exact ⟨fun ⟨i, hi, h⟩ => ⟨⟨i, hi⟩, h⟩, fun ⟨i, h⟩ => ⟨i.val, i.isLt, h⟩⟩

/-- The cells of COMPRESS, register by register. -/
theorem exists_unwritten_compressCell_iff (s : State) :
    (∃ c ∈ compressCells s, c = none)
      ↔ (∃ i : Fin 8, s.cvIn[i] = none) ∨ s.counterLo = none ∨ s.counterHi = none ∨ s.blockLen = none
        ∨ s.flags = none ∨ ∃ i : Fin 16, s.msg[i] = none := by
  rw [exists_eq_right, ← none_mem_toList_iff, ← none_mem_toList_iff]
  simp [compressCells, eq_comm]

/-- The cells of a chunk of `L` bytes, word by word. -/
theorem exists_unwritten_chunkCell_iff (s : State) (L : Nat) :
    (∃ c ∈ chunkCells s L, c = none) ↔ ∃ k : Fin 256, k.val < wordsFor L ∧ s.chunkBuf[k] = none := by
  refine ⟨exists_unwritten_word, fun ⟨k, hk, hnone⟩ => ⟨_, ?_, hnone⟩⟩
  exact List.mem_take_iff_getElem.mpr ⟨k.val, by simpa using hk, by simp⟩

/-- PUSH_CHUNK consumes every word of CHUNK_BUF. -/
theorem exists_unwritten_fullChunkCell_iff (s : State) :
    (∃ c ∈ chunkCells s Config.chunkBytes, c = none) ↔ ∃ k : Fin 256, s.chunkBuf[k] = none := by
  rw [exists_unwritten_chunkCell_iff]
  exact exists_congr fun k => and_iff_right k.isLt

/-! ### What a command runs on -/

section
variable (s : State)

@[simp] theorem State.filled_lifecycle : s.filled.lifecycle = s.lifecycle := rfl
@[simp] theorem State.filled_processedChunks : s.filled.processedChunks = s.processedChunks := rfl
@[simp] theorem State.filled_stack : s.filled.stack = s.stack := rfl
@[simp] theorem State.filled_digest : s.filled.digest = s.digest := rfl
@[simp] theorem State.filled_out : s.filled.out = s.out := rfl

@[simp] theorem noteOperands_out (cells : List (Option Word)) : (s.noteOperands cells).out = s.out := by
  rw [noteOperands_frame]

/-- The operands a command consumes are those of the filled state (R31). -/
theorem filled_holdsOperands :
    s.filled.HoldsOperands ⟨cvInValue s, operandValue s 0x060 s.counterLo, operandValue s 0x064 s.counterHi,
      blockLenValue s, flagsValue s, msgValue s⟩ where
  cvIn := by ext i hi : 1; simp [State.filled, cvInValue, operandValue]
  counterLo := rfl
  counterHi := rfl
  blockLen := rfl
  flags := rfl
  msg := by ext i hi : 1; simp [State.filled, msgValue, operandValue]

theorem compressOutput_filled : compressOutput s.filled = compressOutput s := by
  rw [compressOutput_of_holdsOperands (filled_holdsOperands s), CompressOperands.output, compressOutput,
    compressCounter, BitVec.setWidth_eq_extractLsb' (by decide)]

theorem chunkBytes_filled (L : Nat) : chunkBytes s.filled L = chunkBytes s L := by
  have hwords : chunkWords s.filled = chunkWords s := by
    simp [chunkWords, State.filled, operandValue]
  rw [chunkBytes, hwords, chunkBytes]

end

/-- Two states with the same session and the same OUT. -/
structure State.SameResults (s t : State) : Prop extends s.SameSession t where
  out : t.out = s.out

theorem raiseErr_filled_sameResults (s : State) (c : ErrCode) :
    (s.filled.raiseErr c).SameResults (s.raiseErr c) :=
  ⟨⟨rfl, rfl, rfl, rfl, rfl⟩, rfl⟩

/-- PUSH_CHUNK ends the same way from the filled state. -/
theorem execPushChunk_filled {s t : State} (h : execPushChunk s = .next t) :
    ∃ u, execPushChunk s.filled = .next u ∧ u.SameResults t := by
  unfold execPushChunk at h ⊢
  rw [State.filled_lifecycle, State.filled_processedChunks, State.filled_stack, chunkBytes_filled]
  split_ifs at h ⊢ with hl hmax hfull <;> cases h <;> refine ⟨_, rfl, ?_⟩
  · exact raiseErr_filled_sameResults s _
  · exact raiseErr_filled_sameResults s _
  · exact raiseErr_filled_sameResults s _
  · exact ⟨by constructor <;> simp, by simp⟩

/-- FINALIZE ends the same way from the filled state. -/
theorem execFinalize_filled {len : BitVec 11} {s t : State} (h : execFinalize len s = .next t) :
    ∃ u, execFinalize len s.filled = .next u ∧ u.SameResults t := by
  have hroot : rootNode s.filled len.toNat = rootNode s len.toNat := rootNode_eq (chunkBytes_filled s _)
  unfold execFinalize at h ⊢
  rw [State.filled_lifecycle, State.filled_processedChunks, State.filled_stack, hroot]
  split_ifs at h ⊢ with hl hlong hfull <;> cases h <;> refine ⟨_, rfl, ?_⟩
  · exact raiseErr_filled_sameResults s _
  · exact raiseErr_filled_sameResults s _
  · exact raiseErr_filled_sameResults s _
  · exact ⟨by constructor <;> simp, by simp⟩

/-- A command with CHUNK_BUF or no operand ends the same way from the filled state. -/
theorem exec_filled {i : Instr} {s t : State} (hi : i ≠ .compress) (h : exec i s = .next t) :
    ∃ u, exec i s.filled = .next u ∧ u.SameResults t := by
  cases i with
  | reset =>
    cases h
    exact ⟨_, rfl, ⟨rfl, rfl, rfl, rfl, rfl⟩, rfl⟩
  | compress => exact absurd rfl hi
  | pushChunk => exact execPushChunk_filled h
  | finalize len => exact execFinalize_filled h

/-- COMPRESS with an unwritten cell runs on the filled state's operands, without the checks of R203's step 7. -/
theorem execCompress_of_unwritten {s : State} (h : ∃ c ∈ compressCells s, c = none) :
    execCompress s
      = .next ((s.recordFault .unwrittenOperand).setOut (compressOutput s.filled)).succeed := by
  have hw := (exists_unwritten_iff _).mp h
  rcases execCompress_cases s with ⟨hwritten, -⟩ | ⟨-, he⟩
  · simp [hw] at hwritten
  · rw [he, noteOperands_unwritten s hw, compressOutput_filled]

/-- A command that ends with a fault, from a state without one, has ended the host's program. -/
theorem program_over_of_exec_faulted {i : Instr} {s t : State} (hs : s.faulted = none)
    (h : exec i s = .next t) (hfault : t.faulted ≠ none) : t.hostProgram = [] := by
  rcases exec_records h with hkept | hrec
  · exact absurd (hkept.trans hs) hfault
  · exact congrArg State.hostProgram hrec

/-- Settles O28: which cells each command consumes, and what it computes from the filled state. -/
theorem unwrittenOperandFaults : Obligations.UnwrittenOperandFaults := by
  refine fun s t => ⟨fun hs => ⟨fun h => ?_, fun h => ?_, fun len h => ?_, fun h => ?_, fun i h hfault => ?_⟩,
    fun hnone h => ?_, fun i hi h => ?_⟩
  · exact (execCompress_faulted_iff hs h).trans (exists_unwritten_compressCell_iff s)
  · rw [execPushChunk_faulted_iff hs h, exists_unwritten_fullChunkCell_iff]
  · rw [execFinalize_faulted_iff hs h, exists_unwritten_chunkCell_iff]
    rfl
  · cases h
    exact hs
  · exact program_over_of_exec_faulted hs h hfault
  · cases (execCompress_of_unwritten hnone).symm.trans h
    exact ⟨rfl, rfl⟩
  · obtain ⟨u, hu, ⟨hl, hcount, hstack, hdigest, herr⟩, hout⟩ := exec_filled hi h
    exact ⟨u, hu, hl, hcount, hstack, hdigest, hout, herr⟩

end Sys2Proof.Machine
end

section
/-! PROOFS. A command in flight (70_reset_and_hazards.md R234 to R236): its issue, the accesses it refuses, its
completion, and that it completes when its latency has run out. -/

namespace Sys2Proof.Machine

/-! ### Issue and completion -/

/-- A write to CMD with nothing in flight is accepted, whatever the word (R234). -/
theorem regWrite_cmd {s : State} (hb : s.busy = false) (w : Word) : regWrite s 0x000 32 w = .ok (s.issue w) :=
  regWrite_regOffset hb w .cmd rfl

/-- The completion step of a word that decodes is its command and the end of BUSY. -/
theorem step_of_due_ok {s t : State} {i : Instr} (hdue : s.Due) (hi : decode s.inflight = .ok i)
    (ht : exec i s = .next t) : step s = .next { t with busy := false } :=
  (step_of_due hdue).trans (completeCommand_of_ok hi ht)

/-- The completion step ends BUSY, whatever the word in flight. -/
theorem step_of_due_ends_busy {s : State} (hdue : s.Due) : ∃ t, step s = .next t ∧ t.busy = false := by
  obtain ⟨t, ht⟩ := completeCommand_answers s
  exact ⟨t, (step_of_due hdue).trans ht, congrArg State.busy (completeCommand_frame ht)⟩

/-- Settles O5: every command answers, so the completion step does. -/
theorem stepRunsCommandInFlight : Obligations.StepRunsCommandInFlight := by
  intro s i hdue hi
  obtain ⟨t, ht⟩ := exec_answers i s
  exact ⟨t, ht, step_of_due_ok hdue hi ht⟩

theorem decode_of_decodeTableWord {nbits w : Nat} {i : Instr} (h : decodeTableWord nbits w = some i) :
    decode (BitVec.ofNat 32 (w % 2 ^ nbits)) = .ok i := by
  unfold decodeTableWord at h
  split at h
  · next j hj => rw [hj, Option.some.inj h]
  · cases h

/-- A placed word is due at once (log entry 9). -/
theorem withFetchWord_due {s : State} (ht : treeOk s = true) (nbits w : Nat) : (s.withFetchWord nbits w).Due :=
  ⟨rfl, rfl, rfl, ht⟩

/-- Settles O6: the placed word is due, and it is the word that the table decodes. -/
theorem placedWordRunsNext : Obligations.PlacedWordRunsNext := fun _ _ nbits w _ htree hi ht =>
  step_of_due_ok (withFetchWord_due htree nbits w) (decode_of_decodeTableWord hi) ht

/-- Settles O7: the issue is the host's write, the completion the command or ILLEGAL_COMMAND. -/
theorem commandRunsInTwoSteps : Obligations.CommandRunsInTwoSteps := by
  refine ⟨fun s w rest hdoes => ?_, fun s t i hdue hi ht => step_of_due_ok hdue hi ht, fun s e hdue he => ?_⟩
  · have hb : s.busy = false := hdoes.2.1
    exact (step_of_hostDoes hdoes).trans (hostOp_wr_ok (regWrite_cmd hb w))
  · exact (step_of_due hdue).trans (completeCommand_of_error he)

/-! ### What a command in flight refuses -/

/-- While BUSY = 1 every access but the 32-bit read of STATUS is refused (R52 (e), R235). -/
theorem access_of_busy {s : State} (hb : s.busy = true) {d : Dir} {off width : Nat}
    (h : ¬ (d = .read ∧ off = 0x004 ∧ width = 32)) : access s d off width = .error .busError := by
  rw [access_eq_error_iff_condition]
  by_cases hw : width = 32
  · have hstatus : ¬ (d = .read ∧ off = 0x004) := fun ⟨hd, hoff⟩ => h ⟨hd, hoff, hw⟩
    simp [BusErrorCondition, hb, hstatus]
  · simp [BusErrorCondition, hw]

theorem regWrite_of_busy {s : State} (hb : s.busy = true) (off width : Nat) (v : Word) :
    regWrite s off width v = .error .busError := by
  rw [regWrite, access_of_busy hb (by simp)]

/-- Settles O41: STATUS is read in every state, and every other access is refused. -/
theorem busyAllowsStatusReadOnly : Obligations.BusyAllowsStatusReadOnly := by
  refine fun s hb => ⟨regRead_status s, fun off width h => ?_, regWrite_of_busy hb⟩
  rw [regRead, access_of_busy hb (by simpa using h)]

/-! ### The latency runs out -/

/-- A command is in flight on a sound tree, and the host has no hardware reset to apply to it. -/
structure State.InFlight (s : State) : Prop where
  running : s.Running
  busy : s.busy = true
  sound : treeOk s = true
  no_reset : .hwReset ∉ s.hostProgram

/-- Only the host's hardware reset asserts the reset input. -/
theorem hostOp_resetInput {s t : State} {op : HostOp} {rest : List HostOp} (hop : op ≠ .hwReset)
    (h : hostOp s op rest = .next t) : t.resetInput = s.resetInput := by
  rcases hostOp_next h with ⟨off, width, v, u, -, hu, rfl⟩ | ⟨n, off, width, v, -, -, rfl⟩ | ⟨-, rfl⟩
    | ⟨-, rfl⟩ | ⟨-, rfl | rfl⟩ | ⟨hreset, -⟩
  · obtain ⟨r, -, hr⟩ := regWrite_ok hu
    obtain ⟨-, -, -, -, -, -, -, hinput, -⟩ := writeReg_frame hr
    exact hinput
  · rw [noteRead_frame]
    rfl
  · rfl
  · rfl
  · rfl
  · rfl
  · exact absurd hreset hop

/-- A step takes nothing into the host's program. -/
theorem mem_of_mem_step_program {s t : State} (h : step s = .next t) {op : HostOp} (hop : op ∈ t.hostProgram) :
    op ∈ s.hostProgram := by
  rcases step_program h with hkept | htail | ⟨hnil, -⟩
  · exact hkept ▸ hop
  · exact List.mem_of_mem_tail (htail ▸ hop)
  · simp [hnil] at hop

theorem countDown_inFlight {s : State} (hs : s.InFlight) : s.countDown.InFlight :=
  ⟨hs.running, hs.busy, hs.sound, hs.no_reset⟩

/-- What a host turn leaves while a command is in flight. -/
theorem hostTurn_inFlight {s t : State} (hs : s.InFlight) (h : hostTurn s = .next t) :
    t.Running ∧ t.busy = true ∧ treeOk t = true ∧ t.latencyLeft = s.latencyLeft := by
  obtain ⟨hr, hb, htree, hno⟩ := hs
  cases hp : s.hostProgram with
  | nil =>
    cases (hostTurn_idle hp).symm.trans h
    exact ⟨hr, hb, htree, rfl⟩
  | cons op rest =>
    rw [hostTurn_cons hp] at h
    have hop : op ≠ .hwReset := fun heq => hno (by simp [hp, heq])
    refine ⟨(hostOp_resetInput hop h).trans hr, ?_⟩
    rw [hostOp_frame_of_busy hb h]
    exact ⟨hb, htree, rfl⟩

/-- A step within the latency is a turn of the host: the command stays in flight, with one turn less to wait. -/
theorem step_inFlight {s t : State} (hs : s.InFlight) {n : Nat} (hl : s.latencyLeft = n + 1)
    (h : step s = .next t) : t.InFlight ∧ t.latencyLeft = n := by
  have hturn : hostTurn s.countDown = .next t :=
    (step_eq_hostTurn_busy hs.running hs.busy (by omega)).symm.trans h
  obtain ⟨hr, hb, htree, hleft⟩ := hostTurn_inFlight (countDown_inFlight hs) hturn
  exact ⟨⟨hr, hb, htree, fun hmem => hs.no_reset (mem_of_mem_step_program h hmem)⟩, by simp [hleft, hl]⟩

theorem run_completes {s : State} (hs : s.InFlight) {n : Nat} (hl : s.latencyLeft = n) :
    ∃ t, core.run (n + 1) s = .next t ∧ t.busy = false := by
  induction n generalizing s with
  | zero =>
    obtain ⟨t, ht, hb⟩ := step_of_due_ends_busy ⟨hs.running, hs.busy, hl, hs.sound⟩
    exact ⟨t, core_run_next 0 ht, hb⟩
  | succ n ih =>
    obtain ⟨u, hu⟩ := step_answers s
    obtain ⟨hflight, hleft⟩ := step_inFlight hs hl hu
    rw [core_run_next _ hu]
    exact ih hflight hleft

/-- Settles O8, by induction on the turns that are left. -/
theorem commandInFlightCompletes : Obligations.CommandInFlightCompletes := fun _ hr hb htree hno =>
  run_completes ⟨hr, hb, htree, hno⟩ rfl

end Sys2Proof.Machine
end

section
/-! PROOFS. Hardware reset (70_reset_and_hazards.md R230, R231): the values of R230's table, the list of chunks and
the invariant in the state after it. -/

namespace Sys2Proof.Machine

/-! ### The values -/

/-- A raised reset input is acted on before anything else, also while BUSY (R231). -/
theorem step_of_resetInput {s : State} (h : s.resetInput = true) : step s = .next s.hardwareReset := by
  simp [step, oneStep, h]

/-- After reset none of COMPRESS's 28 operand cells has been written. -/
theorem compressCells_reset : compressCells State.reset = List.replicate 28 none := rfl

theorem reset_compressCell {c : Option Word} (h : c ∈ compressCells State.reset) : c = none :=
  List.eq_of_mem_replicate (compressCells_reset ▸ h)

theorem reset_chunkBuf (k : Fin 256) : State.reset.chunkBuf[k] = none := Vector.getElem_replicate k.isLt

theorem stackInfoWord_nil {s : State} (h : s.stack = []) : stackInfoWord s = 0 := by
  simp [stackInfoWord, topLevel_nil h, h]

/-- After reset every register that R30 marks R holds 0. -/
theorem readReg_hardwareReset (s : State) {r : Reg} (h : allows .write r = false) :
    readReg s.hardwareReset r = .ok 0 := by
  cases r with
  | status => exact congrArg Except.ok (show statusWord State.reset = 0 by decide)
  | chunkCountLo => simp [readReg, State.reset]
  | chunkCountHi => simp [readReg, State.reset]
  | stackInfo => exact congrArg Except.ok (stackInfoWord_nil rfl)
  | digest i => exact congrArg Except.ok (Vector.getElem_replicate i.isLt)
  | out i => exact congrArg Except.ok (Vector.getElem_replicate i.isLt)
  | cmd | cvIn | counterLo | counterHi | blockLen | flags | msg | chunkBuf => cases h

theorem regRead_hardwareReset (s : State) (r : Reg) (hr : allows .read r = true) (hw : allows .write r = false) :
    regRead s.hardwareReset (regOffset r) 32 = .ok 0 :=
  (regRead_regOffset rfl r hr).trans (readReg_hardwareReset s hw)

/-- Settles O53: the step is the hardware reset, and each register reads the 0 that reset has given it. -/
theorem hardwareResetValues : Obligations.HardwareResetValues := fun s h =>
  ⟨s.hardwareReset, step_of_resetInput h, rfl, rfl, rfl, rfl, rfl, rfl, rfl, rfl, rfl,
    fun _ => reset_compressCell, reset_chunkBuf, regRead_hardwareReset s .status rfl rfl,
    regRead_hardwareReset s .chunkCountLo rfl rfl, regRead_hardwareReset s .chunkCountHi rfl rfl,
    regRead_hardwareReset s .stackInfo rfl rfl, fun i => regRead_hardwareReset s (.digest i) rfl rfl,
    fun i => regRead_hardwareReset s (.out i) rfl rfl⟩

/-- Settles O54: R230's table, field by field; hardware reset changes nothing of the state after it. -/
theorem resetStateValues : Obligations.ResetStateValues :=
  ⟨rfl, rfl, rfl, rfl, rfl, rfl, rfl, rfl, fun _ => reset_compressCell, reset_chunkBuf,
    regRead_hardwareReset State.reset .status rfl rfl⟩

/-! ### The chunks and the invariant -/

/-- A fresh session has taken no chunk. -/
theorem holds_nil {s : State} (hl : s.lifecycle = .empty) (hcount : s.processedChunks = 0)
    (hstack : s.stack = []) : s.Holds [] :=
  ⟨by simp [hl], by simp, hcount, by rw [hcount, onePositions_zero, hstack, List.map_nil]⟩

/-- Settles O34: hardware reset and RESET both start a fresh session. -/
theorem resetHoldsNoChunk : Obligations.ResetHoldsNoChunk := by
  refine ⟨holds_nil rfl rfl rfl, fun s t h => ?_⟩
  cases h
  exact holds_nil rfl rfl rfl

/-- Settles O60: the tree is empty, DIGEST is 0, ERR is OK and no host variable has a value. -/
theorem resetMeetsInvariant : Obligations.ResetMeetsInvariant :=
  ⟨rfl, rfl, ⟨nofun, nofun⟩, rfl⟩

end Sys2Proof.Machine
end
